-- ==== Sys2Proof/Word.lean ====
section
/-! DEFINITION. The words, bytes and byte sequences of MCAD (00_scope.md R8, R10, R12): bit 0 is the least significant
bit, byte sequences are indexed from 0. -/

namespace Sys2Proof

/-- A 16-bit word: a command word (R60), or a word of the host read map (R35). -/
abbrev Word := BitVec 16

/-- One byte (R12). -/
abbrev Byte := BitVec 8

/-- A card block index, 8 bits (R7 BLOCK_BITS, R46). -/
abbrev BlockIndex := BitVec 8

/-- A card sector index, 8 bits (R7 SECTOR_BITS, R46). -/
abbrev SectorIndex := BitVec 8

/-- A tuple value `t = 4*c1 + 2*c2 + c3`, 3 bits (R15). -/
abbrev TupleValue := BitVec 3

/-- A permission matrix, 12 bits (R108). -/
abbrev Matrix := BitVec 12

/-- The 16-byte data operand port (R41). -/
abbrev Din := Vector Byte 16

/-- A 6-byte key (R7 KEY_BYTES, R33). -/
abbrev KeyBytes := Vector Byte 6

/-- The four access-condition bytes AC[0..3] (R7 AC_BYTES, R33). -/
abbrev AcBytes := Vector Byte 4

end Sys2Proof
end

