-- ==== Sys2Proof/Config.lean ====
section
/-! DEFINITION. What is fixed for every MCAD: the two card kinds, the two block roles, the names of the commands, and the
one parameter the spec leaves open. The numbers of 00_scope.md R7 stand in Machine/Params.lean. -/

namespace Sys2Proof

/-- The card kinds of R3 and R23. -/
inductive CardKind where
  /-- Classic1K, K = 0. -/
  | classic1K
  /-- Classic4K, K = 1. -/
  | classic4K
deriving DecidableEq, Repr

/-- The block roles of R102. -/
inductive Role where
  /-- DATA, bit 0. -/
  | data
  /-- TRAILER, bit 1. -/
  | trailer
deriving DecidableEq, Repr

/-- The commands of the opcode map, in its order (R62). -/
inductive Mnemonic where
  | nop | clrkind | srst | isfirst | istrl | trlfst | trlsec | secof | fstof | secsz | chkblk
  | acdec | acdecc | classify | tview | setkind | kindq
deriving DecidableEq, Repr

namespace Config

/-- The open parameter of R9 and D22: which tuple governs a block of a 16-block sector, by its offset. The spec does not
give it and no command reads it; nothing here gives it a value (assumption log 8). -/
opaque bigSectorTupleMap : Fin 16 → Fin 4

end Config

end Sys2Proof
end

