-- ==== Sys2Proof/Machine/Params.lean ====
section
/-! DEFINITION. The parameters of 00_scope.md R7 and the bits that card kinds and roles are encoded as (10_state.md R23;
30_encoding.md R61; 42_access_decoder.md R102). -/

namespace Sys2Proof

/-- The bit K of a card kind (R23). -/
def CardKind.bit : CardKind → BitVec 1
  | .classic1K => 0
  | .classic4K => 1

/-- The card kind a bit stands for (R61, field k). -/
def CardKind.ofBit (k : BitVec 1) : CardKind := if k = 0 then .classic1K else .classic4K

/-- The bit of a role (R102). -/
def Role.bit : Role → BitVec 1
  | .data => 0
  | .trailer => 1

/-- The role a bit stands for (R61, field r). -/
def Role.ofBit (r : BitVec 1) : Role := if r = 0 then .data else .trailer

namespace Config

/-- SMALL_LIMIT: blocks below it are in 4-block sectors (R7). -/
abbrev smallLimit : Nat := 128

/-- SMALL_SECTOR_BLOCKS (R7). -/
abbrev smallSectorBlocks : Nat := 4

/-- BIG_SECTOR_BLOCKS (R7). -/
abbrev bigSectorBlocks : Nat := 16

/-- SMALL_SECTORS_4K: sectors below it are small (R7). -/
abbrev smallSectors4K : Nat := 32

/-- SECTORS_1K and SECTORS_4K: how many sectors a card has (R7, R47 `SECTORS(K)`). -/
abbrev sectors : CardKind → Nat
  | .classic1K => 16
  | .classic4K => 40

/-- BLOCKS_1K and BLOCKS_4K: how many blocks a card has (R7, R47 `BLOCKS(K)`). -/
abbrev blocks : CardKind → Nat
  | .classic1K => 64
  | .classic4K => 256

/-- The largest BlockIndex, of BLOCK_BITS = 8 bits (R7). -/
abbrev maxBlockIndex : Nat := 255

/-- ATQA_4K: the ATQA byte 1 that means Classic4K (R7, R145). -/
abbrev atqa4K : Byte := 0x02

end Config

end Sys2Proof
end

