-- ==== Sys2Proof/Syntax.lean ====
section
/-! DEFINITION. The commands of MCAD, one constructor per row of spec/opcode_table.json (30_encoding.md R61, R62). The
operands carry the widths of R61; a role and a card kind are names, not bits. -/

namespace Sys2Proof

/-- One MCAD command with the operands of its command word (R61). DIN is no part of the word (R61) and none of this. -/
inductive Instr where
  /-- NOP (R140). -/
  | nop
  /-- CLRKIND (R141). -/
  | clrkind
  /-- SRST (R142). -/
  | srst
  /-- ISFIRST b (R81). -/
  | isfirst (b : BlockIndex)
  /-- ISTRL b (R82). -/
  | istrl (b : BlockIndex)
  /-- TRLFST b (R83). -/
  | trlfst (b : BlockIndex)
  /-- TRLSEC s (R84). -/
  | trlsec (sec : SectorIndex)
  /-- SECOF b (R85). -/
  | secof (b : BlockIndex)
  /-- FSTOF b (R86). -/
  | fstof (b : BlockIndex)
  /-- SECSZ b (R87). -/
  | secsz (b : BlockIndex)
  /-- CHKBLK b (R88). -/
  | chkblk (b : BlockIndex)
  /-- ACDEC (R112). -/
  | acdec
  /-- ACDECC (R113). -/
  | acdecc
  /-- CLASS r, t (R114). The name `class` is a word of Lean. -/
  | classify (r : Role) (t : TupleValue)
  /-- TVIEW (R131). -/
  | tview
  /-- SETKIND k (R144). -/
  | setkind (k : CardKind)
  /-- KINDQ a (R146). -/
  | kindq (a : Byte)
deriving DecidableEq, Repr

/-- The opcode-map row a command belongs to (R62). -/
def Instr.mnemonic : Instr → Mnemonic
  | .nop => .nop
  | .clrkind => .clrkind
  | .srst => .srst
  | .isfirst _ => .isfirst
  | .istrl _ => .istrl
  | .trlfst _ => .trlfst
  | .trlsec _ => .trlsec
  | .secof _ => .secof
  | .fstof _ => .fstof
  | .secsz _ => .secsz
  | .chkblk _ => .chkblk
  | .acdec => .acdec
  | .acdecc => .acdecc
  | .classify _ _ => .classify
  | .tview => .tview
  | .setkind _ => .setkind
  | .kindq _ => .kindq

/-- The operands of a command as natural numbers, in the order of its assembler syntax (R61, R66). -/
def Instr.operands : Instr → List Nat
  | .nop => []
  | .clrkind => []
  | .srst => []
  | .isfirst b => [b.toNat]
  | .istrl b => [b.toNat]
  | .trlfst b => [b.toNat]
  | .trlsec sec => [sec.toNat]
  | .secof b => [b.toNat]
  | .fstof b => [b.toNat]
  | .secsz b => [b.toNat]
  | .chkblk b => [b.toNat]
  | .acdec => []
  | .acdecc => []
  | .classify r t => [r.bit.toNat, t.toNat]
  | .tview => []
  | .setkind k => [k.bit.toNat]
  | .kindq a => [a.toNat]

end Sys2Proof
end

