-- ==== Sys2Proof/WellFormed.lean ====
section
/-! DEFINITION. When a command as a host writes it is well formed (30_encoding.md R61, R66; 20_memory.md R42, R44). The
types of `Instr` already hold the operand widths, so the checks bite on the written form, `SourceCmd`, whose operands
are unbounded naturals; `Instr.wellFormed` is the same operand check on a decoded command. -/

namespace Sys2Proof

/-- The kinds of operand of R61, as the assembler writes them (R66). -/
inductive OperandKind where
  /-- b, s or a: 0..255. -/
  | byte
  /-- t: 0..7. -/
  | tuple
  /-- r: data or trl. -/
  | role
  /-- k: 1k or 4k. -/
  | kind
deriving DecidableEq, Repr

/-- The number of values an operand kind has (R61 widths 8, 3, 1, 1). -/
def OperandKind.bound : OperandKind → Nat
  | .byte => 256
  | .tuple => 8
  | .role => 2
  | .kind => 2

/-- The operands a command takes, in order (R61, R66). -/
def Mnemonic.operandKinds : Mnemonic → List OperandKind
  | .nop => []
  | .clrkind => []
  | .srst => []
  | .isfirst => [.byte]
  | .istrl => [.byte]
  | .trlfst => [.byte]
  | .trlsec => [.byte]
  | .secof => [.byte]
  | .fstof => [.byte]
  | .secsz => [.byte]
  | .chkblk => [.byte]
  | .acdec => []
  | .acdecc => []
  | .classify => [.role, .tuple]
  | .tview => []
  | .setkind => [.kind]
  | .kindq => [.byte]

/-- The commands that take a data operand on DIN (R42). -/
def Mnemonic.takesDin : Mnemonic → Bool
  | .acdec => true
  | .acdecc => true
  | .tview => true
  | .nop | .clrkind | .srst | .isfirst | .istrl | .trlfst | .trlsec | .secof | .fstof | .secsz | .chkblk
  | .classify | .setkind | .kindq => false

/-- One command as a host writes it (R66): a mnemonic, its operands as numbers, and the bytes of a `din` operand. -/
structure SourceCmd where
  op : Mnemonic
  operands : List Nat
  din : Option (List Nat)
deriving DecidableEq, Repr

/-- As many operands as the command takes, each below its bound (R61, R66). -/
def operandsInRange : List OperandKind → List Nat → Bool
  | [], [] => true
  | k :: ks, n :: ns => decide (n < k.bound) && operandsInRange ks ns
  | [], _ :: _ => false
  | _ :: _, [] => false

/-- The `din` operand: present exactly for the commands that take one, 1 to 16 bytes, each below 256 (R44, R66; short
operands: assumption log 9). -/
def dinWellFormed (takes : Bool) : Option (List Nat) → Bool
  | none => !takes
  | some bytes => takes && decide (0 < bytes.length) && decide (bytes.length ≤ 16) && bytes.all (fun n => decide (n < 256))

/-- A written command is well formed. -/
def SourceCmd.wellFormed (c : SourceCmd) : Bool :=
  operandsInRange c.op.operandKinds c.operands && dinWellFormed c.op.takesDin c.din

/-- A decoded command is well formed: its operands are in the ranges of R61. -/
def Instr.wellFormed (i : Instr) : Bool := operandsInRange i.mnemonic.operandKinds i.operands

end Sys2Proof
end

