-- ==== Sys2Proof/Decode.lean ====
section
/-! DEFINITION. The command encoding (30_encoding.md R60 to R65): the opcode map of R62, a decoder that is total on all
65536 words and rejects an ILLEGAL word by the case of R64 it falls under, and the encoder. -/

namespace Sys2Proof

/-- The ILLEGAL words, by the case of R64. -/
inductive IllegalWord where
  /-- R64 (a): OP = 0xF. -/
  | reservedOp
  /-- R64 (b): OP = 0x0 with FN not 0, 1 or 2, or IMM ≠ 0. -/
  | controlFields
  /-- R64 (c): OP in 0x1..0x8 or 0xE with FN ≠ 0. -/
  | immediateFn
  /-- R64 (d): OP in 0x9, 0xA, 0xC with FN ≠ 0 or IMM ≠ 0. -/
  | decoderFields
  /-- R64 (e): OP = 0xB with FN[3:1] ≠ 0 or IMM[7:3] ≠ 0. -/
  | classFields
  /-- R64 (f): OP = 0xD with FN[3:1] ≠ 0 or IMM ≠ 0. -/
  | setkindFields
deriving DecidableEq, Repr

/-- What decoding a word gives: a command, or the reason the word is ILLEGAL. -/
abbrev Decoded := Except IllegalWord Instr

/-- OP = cmd[15:12] (R60). -/
def opField (w : Word) : BitVec 4 := w.extractLsb' 12 4

/-- FN = cmd[11:8] (R60). -/
def fnField (w : Word) : BitVec 4 := w.extractLsb' 8 4

/-- IMM = cmd[7:0] (R60). -/
def immField (w : Word) : Byte := w.extractLsb' 0 8

/-- The fields r and k: cmd[8] = FN[0] (R61). -/
def flagField (w : Word) : BitVec 1 := w.extractLsb' 8 1

/-- The field t: cmd[2:0] (R61). -/
def tupleField (w : Word) : TupleValue := w.extractLsb' 0 3

/-- The words of OP = 0x0: NOP, CLRKIND, SRST by FN, with IMM = 0 (R62, R64 (b)). -/
def decodeControl (w : Word) : Decoded :=
  if immField w ≠ 0 then .error .controlFields
  else if fnField w = 0 then .ok .nop
  else if fnField w = 1 then .ok .clrkind
  else if fnField w = 2 then .ok .srst
  else .error .controlFields

/-- A command whose one operand is IMM, with FN = 0 (R62, R64 (c)). -/
def decodeImmediate (w : Word) (make : Byte → Instr) : Decoded :=
  if fnField w = 0 then .ok (make (immField w)) else .error .immediateFn

/-- A command with neither FN nor IMM (R62, R64 (d)). -/
def decodeBare (w : Word) (i : Instr) : Decoded :=
  if fnField w = 0 ∧ immField w = 0 then .ok i else .error .decoderFields

/-- CLASS: r = cmd[8], t = cmd[2:0], cmd[11:9] and cmd[7:3] zero (R62, R64 (e)). -/
def decodeClass (w : Word) : Decoded :=
  if w.extractLsb' 9 3 = 0 ∧ w.extractLsb' 3 5 = 0 then .ok (.classify (Role.ofBit (flagField w)) (tupleField w))
  else .error .classFields

/-- SETKIND: k = cmd[8], cmd[11:9] and IMM zero (R62, R64 (f)). -/
def decodeSetkind (w : Word) : Decoded :=
  if w.extractLsb' 9 3 = 0 ∧ immField w = 0 then .ok (.setkind (CardKind.ofBit (flagField w)))
  else .error .setkindFields

/-- The decoder, total on all words (R63). -/
def decode (w : Word) : Decoded :=
  match (opField w).toNat with
  | 0x0 => decodeControl w
  | 0x1 => decodeImmediate w .isfirst
  | 0x2 => decodeImmediate w .istrl
  | 0x3 => decodeImmediate w .trlfst
  | 0x4 => decodeImmediate w .trlsec
  | 0x5 => decodeImmediate w .secof
  | 0x6 => decodeImmediate w .fstof
  | 0x7 => decodeImmediate w .secsz
  | 0x8 => decodeImmediate w .chkblk
  | 0x9 => decodeBare w .acdec
  | 0xA => decodeBare w .acdecc
  | 0xB => decodeClass w
  | 0xC => decodeBare w .tview
  | 0xD => decodeSetkind w
  | 0xE => decodeImmediate w .kindq
  | _ => .error .reservedOp

/-- The word of a command (R62, R66): OP, FN and IMM side by side. -/
def encode : Instr → Word
  | .nop => 0x0000#16
  | .clrkind => 0x0100#16
  | .srst => 0x0200#16
  | .isfirst b => 0x10#8 ++ b
  | .istrl b => 0x20#8 ++ b
  | .trlfst b => 0x30#8 ++ b
  | .trlsec sec => 0x40#8 ++ sec
  | .secof b => 0x50#8 ++ b
  | .fstof b => 0x60#8 ++ b
  | .secsz b => 0x70#8 ++ b
  | .chkblk b => 0x80#8 ++ b
  | .acdec => 0x9000#16
  | .acdecc => 0xA000#16
  | .classify r t => 0b1011000#7 ++ r.bit ++ 0#5 ++ t
  | .tview => 0xC000#16
  | .setkind k => 0b1101000#7 ++ k.bit ++ 0#8
  | .kindq a => 0xE0#8 ++ a

/-- One row of the opcode map of R62: a word selects it when `word &&& mask = pattern`. -/
structure OpcodeRow where
  mnemonic : Mnemonic
  pattern : Word
  mask : Word
deriving DecidableEq, Repr

/-- A word selects a row (R62). -/
def OpcodeRow.selects (r : OpcodeRow) (w : Word) : Bool := w &&& r.mask == r.pattern

/-- The opcode map of R62, row by row. The decoder does not read it: it is the table the decoder is held against. -/
def opcodeMap : List OpcodeRow :=
  [ ⟨.nop, 0x0000, 0xFFFF⟩, ⟨.clrkind, 0x0100, 0xFFFF⟩, ⟨.srst, 0x0200, 0xFFFF⟩,
    ⟨.isfirst, 0x1000, 0xFF00⟩, ⟨.istrl, 0x2000, 0xFF00⟩, ⟨.trlfst, 0x3000, 0xFF00⟩,
    ⟨.trlsec, 0x4000, 0xFF00⟩, ⟨.secof, 0x5000, 0xFF00⟩, ⟨.fstof, 0x6000, 0xFF00⟩,
    ⟨.secsz, 0x7000, 0xFF00⟩, ⟨.chkblk, 0x8000, 0xFF00⟩, ⟨.acdec, 0x9000, 0xFFFF⟩,
    ⟨.acdecc, 0xA000, 0xFFFF⟩, ⟨.classify, 0xB000, 0xFEF8⟩, ⟨.tview, 0xC000, 0xFFFF⟩,
    ⟨.setkind, 0xD000, 0xFEFF⟩, ⟨.kindq, 0xE000, 0xFF00⟩ ]

/-- The instruction the decoder reads from a table row's bits: the word is the first `nbits` bits of `w`, the bits above
are 0 (R60: every command is one 16-bit word). -/
def decodeTableWord (nbits w : Nat) : Option Instr :=
  match decode (BitVec.ofNat 16 (w % 2 ^ nbits)) with
  | .ok i => some i
  | .error _ => none

end Sys2Proof
end

