-- ==== Sys2Proof/Machine/State.lean ====
section
/-! DEFINITION. The state of MCAD: the registers of 10_state.md R22 and nothing else of the machine, and beside them the
port inputs the host drives (20_memory.md R40, R41; 70_reset_and_hazards.md R180), which are no registers. All of it is
plain data. -/

namespace Sys2Proof.Machine

open Sys2Proof

/-- The completion codes of R160. The codes 0x5..0xF are never produced, and no value of this type stands for one
(93_implementation_defined.md U9; assumption log 5). -/
inductive Code where
  /-- OK, 0x0. -/
  | ok
  /-- E_ILLEGAL, 0x1. -/
  | illegal
  /-- E_RANGE, 0x2. -/
  | range
  /-- E_KIND_UNSET, 0x3. -/
  | kindUnset
  /-- E_KIND_LOCKED, 0x4. -/
  | kindLocked
deriving DecidableEq, Repr

/-- STATUS (R26): RV, ERRS and CODE. The reserved bits [5:4] always read 0 and are held by no field. -/
structure Status where
  rv : Bool
  errs : Bool
  code : Code
deriving DecidableEq, Repr

/-- KIND (R23, R24): unset (0b00), 1K (0b10) or 4K (0b11). The value 0b01 never occurs, and no value of this type stands
for it (U12; assumption log 4). -/
inductive KindReg where
  /-- KV = 0. -/
  | unset
  /-- KV = 1 and K as the card kind says. -/
  | set (k : CardKind)
deriving DecidableEq, Repr

/-- The result fields (end of R22). -/
structure Results where
  res : Word
  tup : BitVec 12
  prof : BitVec 16
  perm0 : Matrix
  perm1 : Matrix
  perm2 : Matrix
  perm3 : Matrix
  intv : Bool
  intok : Bool
  keyA : KeyBytes
  acr : AcBytes
  keyB : KeyBytes
deriving DecidableEq, Repr

/-- Every result field 0: what `zero_results()` writes (R30) and what reset leaves (R36). -/
def Results.zero : Results where
  res := 0
  tup := 0
  prof := 0
  perm0 := 0
  perm1 := 0
  perm2 := 0
  perm3 := 0
  intv := false
  intok := false
  keyA := #v[0, 0, 0, 0, 0, 0]
  acr := #v[0, 0, 0, 0]
  keyB := #v[0, 0, 0, 0, 0, 0]

/-- The architectural state: exactly the registers of R22. -/
structure Registers where
  status : Status
  kind : KindReg
  results : Results
deriving DecidableEq, Repr

/-- The registers after hardware reset (R36). -/
def Registers.reset : Registers where
  status := { rv := false, errs := false, code := .ok }
  kind := .unset
  results := .zero

/-- What the host drives on MCAD's ports in one step: RST (R180), a command word or none (R41, R187), and DIN (R41). -/
structure Pins where
  rst : Bool
  cmd : Option Word
  din : Din
deriving DecidableEq, Repr

/-- The ports with nothing presented (assumption log 1: DIN is then sampled by nothing). -/
def Pins.idle : Pins where
  rst := false
  cmd := none
  din := #v[0, 0, 0, 0, 0, 0, 0, 0, 0, 0, 0, 0, 0, 0, 0, 0]

/-- The state of a step: the registers, the port inputs of this step, and the port inputs the host drives in the steps
to come (R21: a program is the host's ordered sequence; assumption log 1). -/
structure State where
  regs : Registers
  pins : Pins
  upcoming : List Pins
deriving DecidableEq, Repr

/-- No MCAD command stops the machine: an error is a completion code on a command that completes (R164, R187). So there
is no fault, and this type has no constructor (assumption log 10). Safe: no claim can rest on a stop. -/
inductive Fault where
deriving DecidableEq, Repr

/-- Why an instruction has no meaning. -/
inductive Refusal where
  /-- Raised by `exec`'s arm of an instruction that has no meaning yet; no arm does. Safe: nothing is claimed of such an
  instruction. -/
  | notModelled (mnemonic : String)
deriving DecidableEq, Repr

/-- The outcome of a step. -/
abbrev StepResult := Host.Outcome State Fault Refusal

/-- Right after reset (R36, R181): every register at its reset value, and a host that presents nothing. -/
def State.reset : State where
  regs := .reset
  pins := .idle
  upcoming := []

end Sys2Proof.Machine
end

