-- ==== Sys2Proof/Machine/Operands.lean ====
section
/-! DEFINITION. The data operand DIN: its layout for the commands that read it (20_memory.md R42; 43_trailer_view.md
R130) and its byte lanes on a 128-bit bus (R41). -/

namespace Sys2Proof.Machine

open Sys2Proof

/-- The AC field of ACDEC and ACDECC: AC[k] = DIN[k] for k = 0..3 (R42 (b)). -/
def dinAc (d : Din) : AcBytes := #v[d[0], d[1], d[2], d[3]]

/-- Key A of a trailer: DIN[0..5] (R42 (a), R130). -/
def trailerKeyA (d : Din) : KeyBytes := #v[d[0], d[1], d[2], d[3], d[4], d[5]]

/-- The AC field of a trailer: DIN[6..9] (R42 (a), R130). -/
def trailerAc (d : Din) : AcBytes := #v[d[6], d[7], d[8], d[9]]

/-- Key B of a trailer: DIN[10..15] (R42 (a), R130). -/
def trailerKeyB (d : Din) : KeyBytes := #v[d[10], d[11], d[12], d[13], d[14], d[15]]

/-- The byte lane k of DINBUS: DINBUS[8k+7:8k] (R41). -/
def busLane (bus : BitVec 128) (k : Nat) : Byte := bus.extractLsb' (8 * k) 8

/-- DIN as a 128-bit bus carries it (R41). -/
def dinOfBus (bus : BitVec 128) : Din :=
  #v[busLane bus 0, busLane bus 1, busLane bus 2, busLane bus 3, busLane bus 4, busLane bus 5, busLane bus 6,
    busLane bus 7, busLane bus 8, busLane bus 9, busLane bus 10, busLane bus 11, busLane bus 12, busLane bus 13,
    busLane bus 14, busLane bus 15]

/-- DINBUS for a DIN value: DIN[0] in the least significant byte lane (R41). -/
def busOfDin (d : Din) : BitVec 128 :=
  d[15] ++ d[14] ++ d[13] ++ d[12] ++ d[11] ++ d[10] ++ d[9] ++ d[8] ++ d[7] ++ d[6] ++ d[5] ++ d[4] ++ d[3] ++ d[2]
    ++ d[1] ++ d[0]

end Sys2Proof.Machine
end

