-- ==== Sys2Proof/Machine/Flags.lean ====
section
/-! DEFINITION. STATUS and KIND as bits (10_state.md R23, R26; 60_exceptions.md R160) and the STATUS computations (R162;
44_control.md R142). STATUS is MCAD's only flag state (R27). -/

namespace Sys2Proof.Machine

open Sys2Proof

/-- The 4-bit value of a completion code (R160). -/
def Code.toBits : Code → BitVec 4
  | .ok => 0x0
  | .illegal => 0x1
  | .range => 0x2
  | .kindUnset => 0x3
  | .kindLocked => 0x4

/-- STATUS as the 8 bits of R26. -/
def Status.toBits (st : Status) : BitVec 8 :=
  BitVec.ofBool st.rv ++ BitVec.ofBool st.errs ++ 0#2 ++ st.code.toBits

/-- KV (R23). -/
def KindReg.valid : KindReg → Bool
  | .unset => false
  | .set _ => true

/-- KIND as the 2 bits {KV, K} of R23. -/
def KindReg.toBits : KindReg → BitVec 2
  | .unset => 0b00
  | .set k => 1#1 ++ k.bit

/-- PERMi (R31). -/
def Results.perm (r : Results) : Fin 4 → Matrix
  | 0 => r.perm0
  | 1 => r.perm1
  | 2 => r.perm2
  | 3 => r.perm3

/-- `finish(code)` on STATUS (R162): RV = 1, CODE = code, ERRS set when the code is not OK and kept otherwise. -/
def finishStatus (code : Code) (st : Status) : Status :=
  { rv := true, errs := st.errs || decide (code ≠ .ok), code := code }

/-- `ERRS <- 0` (R142). -/
def clearErrs (st : Status) : Status := { st with errs := false }

end Sys2Proof.Machine
end

