-- ==== Sys2Proof/Machine/Ops.lean ====
section
/-! DEFINITION. The operations every command is made of (00_scope.md R13): `zero_results`, `finish`, `fail`, and what the
ports do around a command: hardware reset, and the host's next pin values. A command reads the state before it and
writes everything at its end (70_reset_and_hazards.md R186), so each operation maps the state before to the state
after. -/

namespace Sys2Proof.Machine

open Sys2Proof

/-- `zext_16(v)` (R13): a natural below 65536 as a 16-bit word. -/
def zext16 (n : Nat) : Word := BitVec.ofNat 16 n

/-- A boolean stored in a bit is 1 for true and 0 for false (R11). -/
def boolNat (b : Bool) : Nat := if b then 1 else 0

/-- `finish(code)` (R162). -/
def finish (code : Code) (r : Registers) : Registers := { r with status := finishStatus code r.status }

/-- A command that succeeds: its result fields, which it built up from `zero_results()` (R30), and `finish(OK)`. -/
def complete (results : Results) (s : State) : State :=
  { s with regs := finish .ok { s.regs with results := results } }

/-- A command that succeeds and writes KIND too (R141, R144, R146). -/
def completeKind (kind : KindReg) (results : Results) (s : State) : State :=
  { s with regs := finish .ok { s.regs with kind := kind, results := results } }

/-- The result fields of a command that writes RES alone: all 0 but RES (R28). -/
def onlyRes (n : Nat) : Results := { Results.zero with res := zext16 n }

/-- `fail(code)` (R163), MCAD's one way to take an error: every write the command made is discarded, so KIND is the one
from before it; the result fields are zeroed; then `finish(code)`. There is nothing to return from (R164). -/
def fail (code : Code) (s : State) : State :=
  { s with regs := finish code { s.regs with results := .zero } }

/-- An ILLEGAL word executes as `fail(E_ILLEGAL)` (R64). -/
def runIllegal (s : State) : State := fail .illegal s

/-- Hardware reset (R180): every register holds its reset value. The ports are the host's and stay. -/
def hardReset (s : State) : State := { s with regs := .reset }

/-- The host's next pin values reach the ports; with none left it presents nothing. MCAD keeps nothing of the old ones
(R37). -/
def advance (s : State) : State :=
  match s.upcoming with
  | [] => { s with pins := .idle }
  | p :: ps => { s with pins := p, upcoming := ps }

/-- The state whose ports carry the command word `w`, with RST low; DIN is what the host drives. -/
def present (w : Word) (s : State) : State := { s with pins := { s.pins with rst := false, cmd := some w } }

/-- `f` on the state of a next outcome. -/
def mapNext (f : State → State) : StepResult → StepResult
  | .next s => .next (f s)
  | .fault r => .fault r
  | .refused r => .refused r

/-- The state in which the host drives the list `ps`, one entry a step (R21, R187). -/
def withBeats (s : State) : List Pins → State
  | [] => { s with pins := .idle, upcoming := [] }
  | p :: ps => { s with pins := p, upcoming := ps }

end Sys2Proof.Machine
end

