-- ==== Sys2Proof/Machine/Profiles.lean ====
section
/-! DEFINITION. Access tuples, permission profiles and permission matrices (42_access_decoder.md R100 to R110): the
classification of a tuple in a role, the rights each profile's text grants as R107 reads it, and the 2-bit grant
encoding of R108. -/

namespace Sys2Proof.Machine

open Sys2Proof

/-- An access tuple (c1, c2, c3) (R15, R100). -/
structure AccessTuple where
  c1 : Bool
  c2 : Bool
  c3 : Bool
deriving DecidableEq, Repr

/-- The tuple value `t = 4*c1 + 2*c2 + c3` (R15): c1 is the most significant bit. -/
def tupleValue (t : AccessTuple) : TupleValue := BitVec.ofBool t.c1 ++ BitVec.ofBool t.c2 ++ BitVec.ofBool t.c3

/-- The tuple of a tuple value (R15). -/
def tupleOfValue (v : TupleValue) : AccessTuple :=
  { c1 := v.getLsbD 2, c2 := v.getLsbD 1, c3 := v.getLsbD 0 }

/-- The eight data profiles of R104, each with the source's text. -/
inductive DataProfile where
  /-- 000: "Transport: read/write/inc/dec by A∨B". -/
  | transport
  /-- 001: "Decrement-only: read+decrement by A∨B". -/
  | decrementOnly
  /-- 010: "Read by A∨B; read-only". -/
  | readOnly
  /-- 011: "Read/write only by B; no value ops". -/
  | readWriteByB
  /-- 100: "Read by A∨B, write by B; no value ops". -/
  | readAnyWriteByB
  /-- 101: "Read only by B; read-only". -/
  | readOnlyByB
  /-- 110: "Read+decrement by A∨B; write+increment only by B". -/
  | valueBlock
  /-- 111: "Dead block; no operation permitted". -/
  | dead
deriving DecidableEq, Repr

/-- The eight trailer profiles of R103, each with the source's text. -/
inductive TrailerProfile where
  /-- 000: "Key A writable by A; AC readable by A; Key B readable+writable by A". -/
  | keysByA
  /-- 001: "Transport: everything on trailer (except reading Key A) permitted by A". -/
  | transport
  /-- 010: "Key A immutable; AC readable by A; Key B readable by A". -/
  | readableByA
  /-- 011: "Key A writable by B; AC readable by A∨B and writable by B; Key B writable by B". -/
  | keysAndAcByB
  /-- 100: "Key A writable by B; AC readable by A∨B; Key B writable by B". -/
  | keysByB
  /-- 101: "AC readable by A∨B, writable by B; nothing else permitted". -/
  | acByB
  /-- 110: "AC readable by A∨B; nothing else permitted". -/
  | acReadable110
  /-- 111: "AC readable by A∨B; nothing else permitted". The text of 110, a code of its own (R106). -/
  | acReadable111
deriving DecidableEq, Repr

/-- One of the 16 permission profiles (R105). -/
inductive Profile where
  | data (p : DataProfile)
  | trailer (p : TrailerProfile)
deriving DecidableEq, Repr

/-- The data profile of a tuple: the table of R104, a row for each (c1, c2, c3) and no default. -/
def dataProfileOf (t : AccessTuple) : DataProfile :=
  match t.c1, t.c2, t.c3 with
  | false, false, false => .transport
  | false, false, true => .decrementOnly
  | false, true, false => .readOnly
  | false, true, true => .readWriteByB
  | true, false, false => .readAnyWriteByB
  | true, false, true => .readOnlyByB
  | true, true, false => .valueBlock
  | true, true, true => .dead

/-- The trailer profile of a tuple: the table of R103, a row for each (c1, c2, c3) and no default. -/
def trailerProfileOf (t : AccessTuple) : TrailerProfile :=
  match t.c1, t.c2, t.c3 with
  | false, false, false => .keysByA
  | false, false, true => .transport
  | false, true, false => .readableByA
  | false, true, true => .keysAndAcByB
  | true, false, false => .keysByB
  | true, false, true => .acByB
  | true, true, false => .acReadable110
  | true, true, true => .acReadable111

/-- Classification of a tuple in its role (R103 to R105). -/
def profileOf : Role → AccessTuple → Profile
  | .data, t => .data (dataProfileOf t)
  | .trailer, t => .trailer (trailerProfileOf t)

/-- The profile code `8*role + t` (R106). -/
def profileCode (r : Role) (v : TupleValue) : BitVec 4 := r.bit ++ v

/-- Which keys grant a right (R107 (a), R108). -/
inductive Grant where
  | never
  | keyA
  | keyB
  | either
deriving DecidableEq, Repr

/-- The 2-bit grant field: bit 0 for Key A, bit 1 for Key B (R108). -/
def grantBits : Grant → BitVec 2
  | .never => 0b00
  | .keyA => 0b01
  | .keyB => 0b10
  | .either => 0b11

/-- The rights on a data block (R108). -/
structure DataRights where
  read : Grant
  write : Grant
  increment : Grant
  decrement : Grant
deriving DecidableEq, Repr

/-- The rights on a trailer (R108). -/
structure TrailerRights where
  keyARead : Grant
  keyAWrite : Grant
  acRead : Grant
  acWrite : Grant
  keyBRead : Grant
  keyBWrite : Grant
deriving DecidableEq, Repr

/-- A data profile's text read as rights by R107: a right it does not name is never granted. -/
def dataRights : DataProfile → DataRights
  | .transport => { read := .either, write := .either, increment := .either, decrement := .either }
  | .decrementOnly => { read := .either, write := .never, increment := .never, decrement := .either }
  | .readOnly => { read := .either, write := .never, increment := .never, decrement := .never }
  | .readWriteByB => { read := .keyB, write := .keyB, increment := .never, decrement := .never }
  | .readAnyWriteByB => { read := .either, write := .keyB, increment := .never, decrement := .never }
  | .readOnlyByB => { read := .keyB, write := .never, increment := .never, decrement := .never }
  | .valueBlock => { read := .either, write := .keyB, increment := .keyB, decrement := .either }
  | .dead => { read := .never, write := .never, increment := .never, decrement := .never }

/-- A trailer profile's text read as rights by R107: a right it does not name is never granted. -/
def trailerRights : TrailerProfile → TrailerRights
  | .keysByA =>
    { keyARead := .never, keyAWrite := .keyA, acRead := .keyA, acWrite := .never, keyBRead := .keyA, keyBWrite := .keyA }
  | .transport =>
    { keyARead := .never, keyAWrite := .keyA, acRead := .keyA, acWrite := .keyA, keyBRead := .keyA, keyBWrite := .keyA }
  | .readableByA =>
    { keyARead := .never, keyAWrite := .never, acRead := .keyA, acWrite := .never, keyBRead := .keyA, keyBWrite := .never }
  | .keysAndAcByB =>
    { keyARead := .never, keyAWrite := .keyB, acRead := .either, acWrite := .keyB, keyBRead := .never, keyBWrite := .keyB }
  | .keysByB =>
    { keyARead := .never, keyAWrite := .keyB, acRead := .either, acWrite := .never, keyBRead := .never, keyBWrite := .keyB }
  | .acByB =>
    { keyARead := .never, keyAWrite := .never, acRead := .either, acWrite := .keyB, keyBRead := .never, keyBWrite := .never }
  | .acReadable110 =>
    { keyARead := .never, keyAWrite := .never, acRead := .either, acWrite := .never, keyBRead := .never, keyBWrite := .never }
  | .acReadable111 =>
    { keyARead := .never, keyAWrite := .never, acRead := .either, acWrite := .never, keyBRead := .never, keyBWrite := .never }

/-- The data matrix: READ in [1:0], WRITE in [3:2], INCREMENT in [5:4], DECREMENT in [7:6], 0 in [11:8] (R108). -/
def dataMatrix (r : DataRights) : Matrix :=
  0#4 ++ grantBits r.decrement ++ grantBits r.increment ++ grantBits r.write ++ grantBits r.read

/-- The trailer matrix: KEYA_READ in [1:0] up to KEYB_WRITE in [11:10] (R108). -/
def trailerMatrix (r : TrailerRights) : Matrix :=
  grantBits r.keyBWrite ++ grantBits r.keyBRead ++ grantBits r.acWrite ++ grantBits r.acRead ++ grantBits r.keyAWrite
    ++ grantBits r.keyARead

/-- The permission matrix of a profile. -/
def profileMatrix : Profile → Matrix
  | .data p => dataMatrix (dataRights p)
  | .trailer p => trailerMatrix (trailerRights p)

/-- `matrix(role, t)` (R108 to R110). -/
def permMatrix (r : Role) (t : AccessTuple) : Matrix := profileMatrix (profileOf r t)

end Sys2Proof.Machine
end

