-- ==== Sys2Proof/Machine/AccessDecoder.lean ====
section
/-! DEFINITION. The access-condition decoder (42_access_decoder.md): tuple extraction R100, roles R102, the integrity
function R111, the shared decode step R116, and ACDEC, ACDECC, CLASS. -/

namespace Sys2Proof.Machine

open Sys2Proof

/-- c1(i) = AC[1][i+4] (R100). -/
def acC1 (ac : AcBytes) (i : Nat) : Bool := ac[1].getLsbD (i + 4)

/-- c2(i) = AC[2][i] (R100). -/
def acC2 (ac : AcBytes) (i : Nat) : Bool := ac[2].getLsbD i

/-- c3(i) = AC[2][i+4] (R100). -/
def acC3 (ac : AcBytes) (i : Nat) : Bool := ac[2].getLsbD (i + 4)

/-- The tuple of in-sector index i (R100). No other bit of AC reaches it (R101). -/
def acTuple (ac : AcBytes) (i : Nat) : AccessTuple := { c1 := acC1 ac i, c2 := acC2 ac i, c3 := acC3 ac i }

/-- t(i) (R100). -/
def acValue (ac : AcBytes) (i : Nat) : TupleValue := tupleValue (acTuple ac i)

/-- `role(i)` (R102): TRAILER for i = 3, DATA for 0, 1, 2. -/
def tupleRole (i : Nat) : Role := if i = 3 then .trailer else .data

/-- TUP of an AC field: TUP[3i+2:3i] = t(i) (R29, R116). -/
def packTuples (ac : AcBytes) : BitVec 12 := acValue ac 3 ++ acValue ac 2 ++ acValue ac 1 ++ acValue ac 0

/-- The profile code of tuple i in its role (R106, R116). -/
def acCode (ac : AcBytes) (i : Nat) : BitVec 4 := profileCode (tupleRole i) (acValue ac i)

/-- PROF of an AC field: PROF[4i+3:4i] is the code of tuple i (R30, R116). -/
def packProfiles (ac : AcBytes) : BitVec 16 := acCode ac 3 ++ acCode ac 2 ++ acCode ac 1 ++ acCode ac 0

/-- The permission matrix of tuple i in its role (R116). -/
def acMatrix (ac : AcBytes) (i : Nat) : Matrix := permMatrix (tupleRole i) (acTuple ac i)

/-- `decode_into_results(AC)` (R116): TUP, PROF, PERM0..3 and ACR; every other field as it was. -/
def decodeIntoResults (ac : AcBytes) (r : Results) : Results :=
  { r with
    tup := packTuples ac
    prof := packProfiles ac
    perm0 := acMatrix ac 0
    perm1 := acMatrix ac 1
    perm2 := acMatrix ac 2
    perm3 := acMatrix ac 3
    acr := ac }

/-- The three inverted copies of tuple i agree with its direct bits (R111; the nibble assignment is the spec's, from
general knowledge: assumption log 6). -/
def inversesAgree (ac : AcBytes) (i : Nat) : Bool :=
  ac[0].getLsbD i == !acC1 ac i && ac[0].getLsbD (i + 4) == !acC2 ac i && ac[1].getLsbD i == !acC3 ac i

/-- `integrity(AC)` (R111): every direct access bit has its inverted copy in place. -/
def integrity (ac : AcBytes) : Bool :=
  inversesAgree ac 0 && inversesAgree ac 1 && inversesAgree ac 2 && inversesAgree ac 3

/-- ACDEC (R112): the lenient decode, INTV = INTOK = 0. -/
def execAcdec (s : State) : StepResult := .next (complete (decodeIntoResults (dinAc s.pins.din) .zero) s)

/-- ACDECC (R113): the decode with INTV = 1 and INTOK the integrity function; a failed check is no error. -/
def execAcdecc (s : State) : StepResult :=
  .next (complete
    { decodeIntoResults (dinAc s.pins.din) .zero with intv := true, intok := integrity (dinAc s.pins.din) } s)

/-- CLASS (R114): RES and PROF[3:0] the profile code, PERM0 the matrix. -/
def execClassify (r : Role) (t : TupleValue) (s : State) : StepResult :=
  .next (complete
    { Results.zero with
      res := zext16 (profileCode r t).toNat
      prof := 0#12 ++ profileCode r t
      perm0 := permMatrix r (tupleOfValue t) } s)

end Sys2Proof.Machine
end

