-- ==== Sys2Proof/Machine/Control.lean ====
section
/-! DEFINITION. The control and card-kind commands (44_control.md): NOP, CLRKIND, SRST, SETKIND, KINDQ. -/

namespace Sys2Proof.Machine

open Sys2Proof

/-- NOP (R140): clears the result fields. -/
def execNop (s : State) : StepResult := .next (complete .zero s)

/-- CLRKIND (R141): KIND becomes unset. -/
def execClrkind (s : State) : StepResult := .next (completeKind .unset .zero s)

/-- SRST (R142): KIND unset, results 0, ERRS cleared, then `finish(OK)`. -/
def execSrst (s : State) : StepResult :=
  .next (completeKind .unset .zero { s with regs := { s.regs with status := clearErrs s.regs.status } })

/-- A write of KIND with a card kind (R143, R144, R146): E_KIND_LOCKED when a kind is set; else KIND <- {1, k} and
RES <- k. -/
def writeKind (k : CardKind) (s : State) : State :=
  match s.regs.kind with
  | .set _ => fail .kindLocked s
  | .unset => completeKind (.set k) (onlyRes k.bit.toNat) s

/-- SETKIND (R144). -/
def execSetkind (k : CardKind) (s : State) : StepResult := .next (writeKind k s)

/-- `kind_of_atqa1` (R145): the whole byte equals 0x02. -/
def kindOfAtqa1 (a : Byte) : CardKind := if a = Config.atqa4K then .classic4K else .classic1K

/-- KINDQ (R146). -/
def execKindq (a : Byte) (s : State) : StepResult := .next (writeKind (kindOfAtqa1 a) s)

end Sys2Proof.Machine
end

