-- ==== Sys2Proof/Machine/Geometry.lean ====
section
/-! DEFINITION. The geometry commands (41_geometry.md): the sector geometry of the card's block space (20_memory.md R46
to R48) on naturals (R11, R80: nothing wraps), and ISFIRST, ISTRL, TRLFST, TRLSEC, SECOF, FSTOF, SECSZ, CHKBLK. -/

namespace Sys2Proof.Machine

open Sys2Proof

/-- The number of blocks of the sector that block b lies in (R87). -/
def sectorSize (b : Nat) : Nat := if b < Config.smallLimit then Config.smallSectorBlocks else Config.bigSectorBlocks

/-- `is_first_block(b)` (R81). -/
def isFirstBlock (b : Nat) : Bool :=
  (b < Config.smallLimit && b % Config.smallSectorBlocks == 0)
    || (b ≥ Config.smallLimit && b % Config.bigSectorBlocks == 0)

/-- `is_trailer_block(b)` (R82), b + 1 a natural. -/
def isTrailerBlock (b : Nat) : Bool :=
  (b < Config.smallLimit && (b + 1) % Config.smallSectorBlocks == 0)
    || (b ≥ Config.smallLimit && (b + 1) % Config.bigSectorBlocks == 0)

/-- `trailer_of_sector_first(b)` (R83): the formula as given, up to 270. -/
def trailerOfSectorFirst (b : Nat) : Nat := if b < Config.smallLimit then b + 3 else b + 15

/-- `trailer_of_sector_index(s)` by kind (R84). -/
def trailerOfSectorIndex (k : CardKind) (sec : Nat) : Nat :=
  match k with
  | .classic1K => 4 * sec + 3
  | .classic4K => if sec < Config.smallSectors4K then 4 * sec + 3 else 128 + 16 * (sec - 32) + 15

/-- `sector_of_block(b)` (R85). -/
def sectorOfBlock (b : Nat) : Nat := if b < Config.smallLimit then b / 4 else 32 + (b - 128) / 16

/-- `first_block_of(b)` (R86). -/
def firstBlockOf (b : Nat) : Nat := if b < Config.smallLimit then b - b % 4 else b - b % 16

/-- The tuple that governs block b (R133): in a 4-block sector its offset from the first block; in a 16-block sector the
open parameter of R9. No command uses it. -/
def governingTuple (b : BlockIndex) : Fin 4 :=
  if b.toNat < Config.smallLimit then Fin.ofNat 4 (b.toNat - firstBlockOf b.toNat)
  else Config.bigSectorTupleMap (Fin.ofNat 16 (b.toNat - firstBlockOf b.toNat))

/-- The decoder's role of a block (R48): the last block of a sector is its trailer, every other one is data. -/
def blockRole (b : BlockIndex) : Role := if isTrailerBlock b.toNat then .trailer else .data

/-- ISFIRST (R81). -/
def execIsfirst (b : BlockIndex) (s : State) : StepResult :=
  .next (complete (onlyRes (boolNat (isFirstBlock b.toNat))) s)

/-- ISTRL (R82). -/
def execIstrl (b : BlockIndex) (s : State) : StepResult :=
  .next (complete (onlyRes (boolNat (isTrailerBlock b.toNat))) s)

/-- TRLFST (R83): E_RANGE when the result is no 8-bit BlockIndex. -/
def execTrlfst (b : BlockIndex) (s : State) : StepResult :=
  if trailerOfSectorFirst b.toNat > Config.maxBlockIndex then .next (fail .range s)
  else .next (complete (onlyRes (trailerOfSectorFirst b.toNat)) s)

/-- TRLSEC (R84): E_KIND_UNSET before E_RANGE (R166). -/
def execTrlsec (sec : SectorIndex) (s : State) : StepResult :=
  match s.regs.kind with
  | .unset => .next (fail .kindUnset s)
  | .set k =>
    if sec.toNat ≥ Config.sectors k then .next (fail .range s)
    else .next (complete (onlyRes (trailerOfSectorIndex k sec.toNat)) s)

/-- SECOF (R85). -/
def execSecof (b : BlockIndex) (s : State) : StepResult := .next (complete (onlyRes (sectorOfBlock b.toNat)) s)

/-- FSTOF (R86). -/
def execFstof (b : BlockIndex) (s : State) : StepResult := .next (complete (onlyRes (firstBlockOf b.toNat)) s)

/-- SECSZ (R87). -/
def execSecsz (b : BlockIndex) (s : State) : StepResult := .next (complete (onlyRes (sectorSize b.toNat)) s)

/-- CHKBLK (R88): a block beyond capacity is the answer 0, no error. -/
def execChkblk (b : BlockIndex) (s : State) : StepResult :=
  match s.regs.kind with
  | .unset => .next (fail .kindUnset s)
  | .set k => .next (complete (onlyRes (boolNat (decide (b.toNat < Config.blocks k)))) s)

end Sys2Proof.Machine
end

