-- ==== Sys2Proof/Machine/TrailerView.lean ====
section
/-! DEFINITION. The trailer view (43_trailer_view.md): TVIEW splits a 16-byte trailer into its keys and AC field and
decodes the AC field leniently. -/

namespace Sys2Proof.Machine

open Sys2Proof

/-- TVIEW (R131). -/
def execTview (s : State) : StepResult :=
  .next (complete
    (decodeIntoResults (trailerAc s.pins.din)
      { Results.zero with keyA := trailerKeyA s.pins.din, keyB := trailerKeyB s.pins.din }) s)

end Sys2Proof.Machine
end

