-- ==== Sys2Proof/Machine/Dispatch.lean ====
section
/-! DEFINITION. The meaning of each command: one arm a constructor, one call of a meaning an arm. -/

namespace Sys2Proof.Machine

open Sys2Proof

def exec (i : Instr) (s : State) : Host.Outcome State Fault Refusal :=
  match i with
  | .nop => Sys2Proof.Machine.execNop s
  | .clrkind => Sys2Proof.Machine.execClrkind s
  | .srst => Sys2Proof.Machine.execSrst s
  | .isfirst b => Sys2Proof.Machine.execIsfirst b s
  | .istrl b => Sys2Proof.Machine.execIstrl b s
  | .trlfst b => Sys2Proof.Machine.execTrlfst b s
  | .trlsec sec => Sys2Proof.Machine.execTrlsec sec s
  | .secof b => Sys2Proof.Machine.execSecof b s
  | .fstof b => Sys2Proof.Machine.execFstof b s
  | .secsz b => Sys2Proof.Machine.execSecsz b s
  | .chkblk b => Sys2Proof.Machine.execChkblk b s
  | .acdec => Sys2Proof.Machine.execAcdec s
  | .acdecc => Sys2Proof.Machine.execAcdecc s
  | .classify r t => Sys2Proof.Machine.execClassify r t s
  | .tview => Sys2Proof.Machine.execTview s
  | .setkind k => Sys2Proof.Machine.execSetkind k s
  | .kindq a => Sys2Proof.Machine.execKindq a s

end Sys2Proof.Machine
end

