-- ==== Sys2Proof/Machine/Ports.lean ====
section
/-! DEFINITION. What the ports ask of MCAD in one step: a presented command word (30_encoding.md R63, R64), RST
(70_reset_and_hazards.md R180), or nothing (R181, R187). -/

namespace Sys2Proof.Machine

open Sys2Proof

/-- What a presented command word does: its command's meaning, or `fail(E_ILLEGAL)` (R63, R64). -/
def runWord (w : Word) (s : State) : StepResult :=
  match decode w with
  | .ok i => exec i s
  | .error _ => .next (runIllegal s)

/-- What the ports ask of MCAD in this step: RST wins over a command (R180); a presented word runs; with neither, MCAD
waits (R181; assumption log 2). -/
def runPins (s : State) : StepResult :=
  if s.pins.rst then .next (hardReset s)
  else
    match s.pins.cmd with
    | none => .next s
    | some w => runWord w s

end Sys2Proof.Machine
end

