-- ==== Sys2Proof/Machine/Step.lean ====
section
/-! DEFINITION. One step of MCAD: what the host drives on the ports in this step, then the host's next pin values
(10_state.md R21; 70_reset_and_hazards.md R180, R181, R187). -/

namespace Sys2Proof.Machine

open Sys2Proof

/-- One step: the pins of this step, then the next pins reach the ports. -/
def step (s : State) : Host.Outcome State Fault Refusal := mapNext advance (runPins s)

/-- `s` with the command whose first `nbits` bits are `w` presented on the command port, so that the next step runs it:
RST low, DIN and the commands to come as they are (assumption log 1). -/
def State.withFetchWord (s : State) (nbits w : Nat) : State := present (BitVec.ofNat 16 (w % 2 ^ nbits)) s

end Sys2Proof.Machine
end

