-- ==== Sys2Proof/Machine/Assembler.lean ====
section
/-! DEFINITION. The assembler syntax of 30_encoding.md R66: a line of text to a written command, and a written command to
what the host drives on the ports. It is outside the step: MCAD sees only the ports. -/

namespace Sys2Proof.Machine

open Sys2Proof

/-- A line is words and commas (R66). -/
inductive Token where
  | word (cs : List Char)
  | comma
deriving DecidableEq, Repr

/-- The word read so far, if any. -/
def flushWord : List Char → List Token
  | [] => []
  | c :: cs => [.word (c :: cs)]

/-- The tokens of a line, in small letters (R66: any letter case); `word` holds the letters of the word being read. -/
def tokens (word : List Char) : List Char → List Token
  | [] => flushWord word
  | c :: cs =>
    if c = ' ' then flushWord word ++ tokens [] cs
    else if c = ',' then flushWord word ++ .comma :: tokens [] cs
    else tokens (word ++ [c.toLower]) cs

/-- The commands' names as R66 writes them. -/
def mnemonicNames : List (List Char × Mnemonic) :=
  [ ("nop".toList, .nop), ("clrkind".toList, .clrkind), ("srst".toList, .srst), ("isfirst".toList, .isfirst),
    ("istrl".toList, .istrl), ("trlfst".toList, .trlfst), ("trlsec".toList, .trlsec), ("secof".toList, .secof),
    ("fstof".toList, .fstof), ("secsz".toList, .secsz), ("chkblk".toList, .chkblk), ("acdec".toList, .acdec),
    ("acdecc".toList, .acdecc), ("class".toList, .classify), ("tview".toList, .tview), ("setkind".toList, .setkind),
    ("kindq".toList, .kindq) ]

/-- The command a word names. -/
def mnemonicOf (cs : List Char) : Option Mnemonic := mnemonicNames.lookup cs

/-- The value of a hexadecimal digit in small letters. -/
def digitValue (c : Char) : Option Nat :=
  if '0' ≤ c ∧ c ≤ '9' then some (c.toNat - '0'.toNat)
  else if 'a' ≤ c ∧ c ≤ 'f' then some (c.toNat - 'a'.toNat + 10)
  else none

/-- The number that digits of a base continue `acc` to. -/
def digitsFrom (base acc : Nat) : List Char → Option Nat
  | [] => some acc
  | c :: cs =>
    match digitValue c with
    | none => none
    | some d => if d < base then digitsFrom base (acc * base + d) cs else none

/-- A number of at least one digit. -/
def number (base : Nat) : List Char → Option Nat
  | [] => none
  | c :: cs => digitsFrom base 0 (c :: cs)

/-- A byte operand: decimal, or hexadecimal after 0x (R66). -/
def byteOperand : List Char → Option Nat
  | '0' :: 'x' :: cs => number 16 cs
  | cs => number 10 cs

/-- A tuple operand: decimal, or three binary digits and the suffix b (R66). -/
def tupleOperand : List Char → Option Nat
  | [c1, c2, c3, 'b'] => number 2 [c1, c2, c3]
  | cs => number 10 cs

/-- An operand of a kind (R66): its number as in `SourceCmd`. -/
def readOperand : OperandKind → List Char → Option Nat
  | .byte, cs => byteOperand cs
  | .tuple, cs => tupleOperand cs
  | .role, cs => if cs = "data".toList then some 0 else if cs = "trl".toList then some 1 else none
  | .kind, cs => if cs = "1k".toList then some 0 else if cs = "4k".toList then some 1 else none

/-- The operands of a command, separated by commas (R66), and the tokens after them. -/
def readOperands : List OperandKind → List Token → Option (List Nat × List Token)
  | [], ts => some ([], ts)
  | [k], .word w :: ts => (readOperand k w).map fun n => ([n], ts)
  | k :: ks, .word w :: .comma :: ts =>
    match readOperand k w, readOperands ks ts with
    | some n, some (ns, rest) => some (n :: ns, rest)
    | _, _ => none
  | _, _ => none

/-- The hexadecimal digits of the `din` operand: words only, spaces between them allowed (R66). -/
def dinDigits : List Token → Option (List Char)
  | [] => some []
  | .word w :: ts => (dinDigits ts).map (w ++ ·)
  | .comma :: _ => none

/-- Two hexadecimal digits a byte, the first byte first (R14, R66). -/
def digitBytes : List Char → Option (List Nat)
  | [] => some []
  | [_] => none
  | h :: l :: cs =>
    match number 16 [h, l], digitBytes cs with
    | some n, some ns => some (n :: ns)
    | _, _ => none

/-- The `din` operand, or none (R66). -/
def readDin : List Token → Option (Option (List Nat))
  | [] => some none
  | .word w :: ts => if w = "din".toList then (dinDigits ts).bind fun cs => (digitBytes cs).map some else none
  | .comma :: _ => none

/-- A line of assembler text (R66). -/
def parseLine (line : List Char) : Option SourceCmd :=
  match tokens [] line with
  | .word w :: ts =>
    match mnemonicOf w with
    | none => none
    | some op =>
      match readOperands op.operandKinds ts with
      | none => none
      | some (operands, rest) => (readDin rest).map fun din => { op := op, operands := operands, din := din }
  | _ => none

/-- The command of a mnemonic and operand numbers in range (R61). -/
def instrOf : Mnemonic → List Nat → Option Instr
  | .nop, [] => some .nop
  | .clrkind, [] => some .clrkind
  | .srst, [] => some .srst
  | .isfirst, [b] => some (.isfirst (BitVec.ofNat 8 b))
  | .istrl, [b] => some (.istrl (BitVec.ofNat 8 b))
  | .trlfst, [b] => some (.trlfst (BitVec.ofNat 8 b))
  | .trlsec, [sec] => some (.trlsec (BitVec.ofNat 8 sec))
  | .secof, [b] => some (.secof (BitVec.ofNat 8 b))
  | .fstof, [b] => some (.fstof (BitVec.ofNat 8 b))
  | .secsz, [b] => some (.secsz (BitVec.ofNat 8 b))
  | .chkblk, [b] => some (.chkblk (BitVec.ofNat 8 b))
  | .acdec, [] => some .acdec
  | .acdecc, [] => some .acdecc
  | .classify, [r, t] => some (.classify (Role.ofBit (BitVec.ofNat 1 r)) (BitVec.ofNat 3 t))
  | .tview, [] => some .tview
  | .setkind, [k] => some (.setkind (CardKind.ofBit (BitVec.ofNat 1 k)))
  | .kindq, [a] => some (.kindq (BitVec.ofNat 8 a))
  | _, _ => none

/-- The byte k of a written `din` operand; a byte not written is 0x00 (95_test_vectors.md; assumption log 9). -/
def writtenByte (din : Option (List Nat)) (k : Nat) : Byte := BitVec.ofNat 8 ((din.getD []).getD k 0)

/-- DIN for a written command: the `din` operand writes DIN for that command only (R66). -/
def writtenDin (din : Option (List Nat)) : Din :=
  #v[writtenByte din 0, writtenByte din 1, writtenByte din 2, writtenByte din 3, writtenByte din 4, writtenByte din 5,
    writtenByte din 6, writtenByte din 7, writtenByte din 8, writtenByte din 9, writtenByte din 10, writtenByte din 11,
    writtenByte din 12, writtenByte din 13, writtenByte din 14, writtenByte din 15]

/-- What the host drives for a written command (R66), if it is well formed. -/
def assemble (c : SourceCmd) : Option Pins :=
  if c.wellFormed then
    (instrOf c.op c.operands).map fun i => { rst := false, cmd := some (encode i), din := writtenDin c.din }
  else none

/-- What the host drives for a line of assembler text (R66). -/
def assembleLine (line : List Char) : Option Pins := (parseLine line).bind assemble

end Sys2Proof.Machine
end

