-- ==== Sys2Proof/Machine/Pseudo.lean ====
section
/-! DEFINITION. The pseudo-commands of 30_encoding.md R67: each source function or console command as the commands a host
issues for it, and where it then reads the result. They are outside the step. -/

namespace Sys2Proof.Machine

open Sys2Proof

/-- The names of R67. AC operands are the four AC bytes, trailers are 16 bytes. -/
inductive Pseudo where
  | isFirstBlock (b : BlockIndex)
  | isTrailerBlock (b : BlockIndex)
  | trailerOfSectorFirst (b : BlockIndex)
  | trailerOfSectorIndex (sec : SectorIndex)
  | firstBlockOf (b : BlockIndex)
  | decode (ac : AcBytes)
  | decodeChecked (ac : AcBytes)
  | integrityCheck (ac : AcBytes)
  | trailerView (trailer : Din)
  /-- Console `at` with 32 hex digits; the integrity warning is the console's (R5 (b)). -/
  | consoleAt (trailer : Din)
  /-- Console `r` of a trailer block; the host has read the block through Session, outside MCAD. -/
  | consoleRead (trailer : Din)
  | recordCardKind (atqa1 : Byte)
  | close
deriving DecidableEq, Repr

/-- DIN with the AC bytes in DIN[0..3] (R42 (b)); the command ignores the rest, driven as 0 here. -/
def acDin (ac : AcBytes) : Din := #v[ac[0], ac[1], ac[2], ac[3], 0, 0, 0, 0, 0, 0, 0, 0, 0, 0, 0, 0]

/-- The host issues one command with a DIN value. -/
def issue (i : Instr) (din : Din) : Pins := { rst := false, cmd := some (encode i), din := din }

/-- The commands a pseudo-command stands for (R67). -/
def expand : Pseudo → List Pins
  | .isFirstBlock b => [issue (.isfirst b) Pins.idle.din]
  | .isTrailerBlock b => [issue (.istrl b) Pins.idle.din]
  | .trailerOfSectorFirst b => [issue (.trlfst b) Pins.idle.din]
  | .trailerOfSectorIndex sec => [issue (.trlsec sec) Pins.idle.din]
  | .firstBlockOf b => [issue (.fstof b) Pins.idle.din]
  | .decode ac => [issue .acdec (acDin ac)]
  | .decodeChecked ac => [issue .acdecc (acDin ac)]
  | .integrityCheck ac => [issue .acdecc (acDin ac)]
  | .trailerView trailer => [issue .tview trailer]
  | .consoleAt trailer => [issue .tview trailer]
  | .consoleRead trailer => [issue .tview trailer]
  | .recordCardKind atqa1 => [issue (.kindq atqa1) Pins.idle.din]
  | .close => [issue .clrkind Pins.idle.din]

/-- The read-map address of the result R67 names: RES (0x02) or INTOK's word (0x09). -/
def resultAddress : Pseudo → Option (BitVec 5)
  | .isFirstBlock _ => some 0x02
  | .isTrailerBlock _ => some 0x02
  | .trailerOfSectorFirst _ => some 0x02
  | .trailerOfSectorIndex _ => some 0x02
  | .firstBlockOf _ => some 0x02
  | .decode _ => none
  | .decodeChecked _ => some 0x09
  | .integrityCheck _ => some 0x09
  | .trailerView _ => none
  | .consoleAt _ => none
  | .consoleRead _ => none
  | .recordCardKind _ => none
  | .close => none

end Sys2Proof.Machine
end

