-- ==== Sys2Proof/Machine/HostPort.lean ====
section
/-! DEFINITION. The host's view of the registers (10_state.md R34, R35): the read map. A read has no side effect, so it is a
function of the state and no step (assumption log 12). -/

namespace Sys2Proof.Machine

open Sys2Proof

/-- Two bytes of a byte register in one word: the lower-numbered byte in bits [7:0] (R35). -/
def bytePair (low high : Byte) : Word := high ++ low

/-- The word the host reads at address A (R35). -/
def readMap (r : Registers) (a : BitVec 5) : Word :=
  match a.toNat with
  | 0x00 => 0#8 ++ r.status.toBits
  | 0x01 => 0#14 ++ r.kind.toBits
  | 0x02 => r.results.res
  | 0x03 => 0#4 ++ r.results.tup
  | 0x04 => r.results.prof
  | 0x05 => 0#4 ++ r.results.perm0
  | 0x06 => 0#4 ++ r.results.perm1
  | 0x07 => 0#4 ++ r.results.perm2
  | 0x08 => 0#4 ++ r.results.perm3
  | 0x09 => 0#14 ++ BitVec.ofBool r.results.intok ++ BitVec.ofBool r.results.intv
  | 0x0A => bytePair r.results.keyA[0] r.results.keyA[1]
  | 0x0B => bytePair r.results.keyA[2] r.results.keyA[3]
  | 0x0C => bytePair r.results.keyA[4] r.results.keyA[5]
  | 0x0D => bytePair r.results.acr[0] r.results.acr[1]
  | 0x0E => bytePair r.results.acr[2] r.results.acr[3]
  | 0x0F => bytePair r.results.keyB[0] r.results.keyB[1]
  | 0x10 => bytePair r.results.keyB[2] r.results.keyB[3]
  | 0x11 => bytePair r.results.keyB[4] r.results.keyB[5]
  | _ => 0

/-- The word the host reads from a machine state at address A (R34, R35). -/
def hostRead (s : State) (a : BitVec 5) : Word := readMap s.regs a

/-- UB, another name for ACR[3] (R33). -/
def userByte (r : Registers) : Byte := r.results.acr[3]

end Sys2Proof.Machine
end

