-- ==== Sys2Proof/Safety.lean ====
section
/-! DEFINITION. What counts as a good state and a good run, in the terms the statements use: when a register holds a
result (70_reset_and_hazards.md R183), when a sequence has run without an error (60_exceptions.md R167), and the
invariant of the registers. -/

namespace Sys2Proof.Machine

open Sys2Proof

/-- The result fields hold a command's result: RV = 1 and CODE = OK (R183). -/
def resultValid (r : Registers) : Bool := r.status.rv && decide (r.status.code = .ok)

/-- No error since reset (R167). -/
def errorFree (r : Registers) : Bool := !r.status.errs

/-- The scalar result of a command in a state: RES, if the command completes and its result fields hold a result. -/
def commandResult (i : Instr) (s : State) : Option Word :=
  match exec i s with
  | .next t => if resultValid t.regs then some t.regs.results.res else none
  | .fault _ => none
  | .refused _ => none

/-- `n` steps, stopping at the first outcome that is no next state: the host's run of the machine. -/
def runSteps : Nat → State → StepResult
  | 0, s => .next s
  | n + 1, s =>
    match step s with
    | .next t => runSteps n t
    | .fault r => .fault r
    | .refused r => .refused r

/-- The registers after one step in which the host drives `p`: MCAD as the function of registers and port inputs that D2
describes. -/
def respond (r : Registers) (p : Pins) : Registers :=
  match step { regs := r, pins := p, upcoming := [] } with
  | .next t => t.regs
  | .fault _ => r
  | .refused _ => r

/-- The invariant of the registers: what the rules promise of every state a run reaches. -/
structure RegInv (r : Registers) : Prop where
  /-- "When INTV = 0, INTOK = 0" (R32). -/
  intok_only_checked : r.results.intv = false → r.results.intok = false
  /-- INTOK is the integrity of the bytes that ACR shows (R32, R113), by the nibble assignment of R111 (assumption log 6). -/
  intok_of_acr : r.results.intv = true → r.results.intok = integrity r.results.acr
  /-- After a failed command: RV = 1, ERRS = 1, every result field 0 (R163). -/
  error_clears : r.status.code ≠ .ok → r.status.rv = true ∧ r.status.errs = true ∧ r.results = .zero
  /-- Before the first command, the registers are as reset leaves them (R181). -/
  before_first : r.status.rv = false → r = .reset
  /-- TUP is the decode of the bytes that ACR shows; both are 0 when no AC field was decoded (R116, R30). -/
  tup_of_acr : r.results.tup = packTuples r.results.acr
  /-- RES holds no more than a BlockIndex, the widest scalar result (R28, R83, R84). -/
  res_fits : r.results.res.toNat ≤ Config.maxBlockIndex

/-- The invariant of a state. The ports are the host's, and nothing is asked of them. -/
def State.Inv (s : State) : Prop := RegInv s.regs

end Sys2Proof.Machine
end

