-- ==== Sys2Proof/Certificates/Slice0/Obligations.lean ====
section
/-! DEFINITION. What is to be proved of MCAD, statement by statement from the numbered rules of spec/. The names of
`Sys2Proof.Claims` write the spec's own right-hand sides: what a completed and a failed command leave, the permission
tables of R109 and R110 as printed, and the ILLEGAL cases of R64 on plain numbers. -/

namespace Sys2Proof.Claims

open Sys2Proof Sys2Proof.Machine

/-- `s` after a command that completed with CODE = OK: RV set, ERRS as it was, KIND and the result fields as given, the
ports untouched (R162). -/
def succeeded (s : State) (kind : KindReg) (results : Results) : State :=
  { s with regs := { status := { rv := true, errs := s.regs.status.errs, code := .ok }, kind := kind, results := results } }

/-- `s` after a command that failed: RV and ERRS set, the code, KIND as it was, every result field 0 (R163). -/
def failed (s : State) (code : Code) : State :=
  { s with regs := { status := { rv := true, errs := true, code := code }, kind := s.regs.kind, results := Results.zero } }

/-- Every result field 0 but RES. -/
def resOnly (v : Nat) : Results := { Results.zero with res := BitVec.ofNat 16 v }

/-- The frame of a decoding command: it completed with OK, KIND and the ports are as they were (R112, R113, R131). -/
def DecodedFrame (s t : State) : Prop :=
  t.regs.status = { rv := true, errs := s.regs.status.errs, code := .ok } ∧ t.regs.kind = s.regs.kind
    ∧ t.pins = s.pins ∧ t.upcoming = s.upcoming

/-- matrix(0, t) for t = 0..7, as R109 prints it. -/
def dataTable : List Matrix := [0x0FF, 0x0C3, 0x003, 0x00A, 0x00B, 0x002, 0x0EB, 0x000]

/-- matrix(1, t) for t = 0..7, as R110 prints it. -/
def trailerTable : List Matrix := [0x514, 0x554, 0x110, 0x8B8, 0x838, 0x0B0, 0x030, 0x030]

/-- matrix(role, t), by the printed tables. -/
def printedMatrix (r : Role) (t : Nat) : Matrix :=
  match r with
  | .data => dataTable.getD t 0
  | .trailer => trailerTable.getD t 0

/-- role(i) (R102). -/
def roleAt (i : Fin 4) : Role := if i.val = 3 then .trailer else .data

/-- 8*role for the profile code (R106). -/
def roleBase (r : Role) : Nat :=
  match r with
  | .data => 0
  | .trailer => 8

/-- t(i) = 4*c1(i) + 2*c2(i) + c3(i) from AC[1] and AC[2] (R100). -/
def tupleNumber (ac1 ac2 : Byte) (i : Fin 4) : Nat :=
  4 * (ac1.getLsbD (i.val + 4)).toNat + 2 * (ac2.getLsbD i.val).toNat + (ac2.getLsbD (i.val + 4)).toNat

/-- TUP, PROF and PERM0..3 hold the decode of AC[1] and AC[2], field by field (R29, R30, R116). -/
def DecodeOf (ac1 ac2 : Byte) (r : Results) : Prop :=
  ∀ i : Fin 4,
    (r.tup.extractLsb' (3 * i.val) 3).toNat = tupleNumber ac1 ac2 i
      ∧ (r.prof.extractLsb' (4 * i.val) 4).toNat = roleBase (roleAt i) + tupleNumber ac1 ac2 i
      ∧ r.perm i = printedMatrix (roleAt i) (tupleNumber ac1 ac2 i)

/-- integrity(AC) on the bits of AC[0..2] (R111). -/
def IntegrityHolds (ac0 ac1 ac2 : Byte) : Prop :=
  ∀ i : Fin 4,
    ac0.getLsbD i.val = !ac1.getLsbD (i.val + 4) ∧ ac0.getLsbD (i.val + 4) = !ac2.getLsbD i.val
      ∧ ac1.getLsbD i.val = !ac2.getLsbD (i.val + 4)

/-- The cases (a) to (f) of R64 on OP, FN and IMM as numbers. -/
abbrev IllegalFields (op fn imm : Nat) : Prop :=
  op = 0xF
    ∨ (op = 0x0 ∧ (2 < fn ∨ imm ≠ 0))
    ∨ (((1 ≤ op ∧ op ≤ 8) ∨ op = 0xE) ∧ fn ≠ 0)
    ∨ ((op = 0x9 ∨ op = 0xA ∨ op = 0xC) ∧ (fn ≠ 0 ∨ imm ≠ 0))
    ∨ (op = 0xB ∧ (fn / 2 ≠ 0 ∨ imm / 8 ≠ 0))
    ∨ (op = 0xD ∧ (fn / 2 ≠ 0 ∨ imm ≠ 0))

/-- A word falls under one of the cases of R64. -/
abbrev IllegalCase (w : Word) : Prop := IllegalFields (w.toNat / 4096) (w.toNat / 256 % 16) (w.toNat % 256)

/-- The pins of the step in which the host issues a command word with RST low. -/
def Issues (s : State) (w : Word) : Prop := s.pins.rst = false ∧ s.pins.cmd = some w

/-- The state in which `s` has the DIN port driven with `d`. -/
def drivenWith (s : State) (d : Din) : State := { s with pins := { s.pins with din := d } }

end Sys2Proof.Claims

open Sys2Proof Sys2Proof.Machine Sys2Proof.Claims

/-! ### Encoding -/

/-- Every command with every operand value decodes back from its word (R62, R66). -/
def Obligations.DecodeOfEncodeIsTheCommand : Prop := ∀ i : Instr, decode (encode i) = .ok i

/-- A legal word is the word of the command it decodes to, and that command's operands are in range: the decoder drops
no bit (R61, R62). -/
def Obligations.EncodeOfDecodeIsTheWord : Prop :=
  ∀ (w : Word) (i : Instr), decode w = .ok i → encode i = w ∧ i.wellFormed = true

/-- The decoder is the search of R63 through the opcode map: a word decodes exactly when a row selects it, to the command
of that row; no word selects two rows, whose match values differ in OP, or for OP = 0 in FN under a full mask. -/
def Obligations.DecodeIsOpcodeMapSearch : Prop :=
  (∀ (w : Word) (r : OpcodeRow), r ∈ opcodeMap → r.selects w = true → ∃ i, decode w = .ok i ∧ i.mnemonic = r.mnemonic)
    ∧ (∀ w : Word, (∀ r ∈ opcodeMap, r.selects w = false) → ∃ e, decode w = .error e)
    ∧ (∀ (w : Word) (r r' : OpcodeRow), r ∈ opcodeMap → r' ∈ opcodeMap → r.selects w = true → r'.selects w = true → r = r')
    ∧ (∀ r r' : OpcodeRow, r ∈ opcodeMap → r' ∈ opcodeMap → r ≠ r' →
        opField r.pattern ≠ opField r'.pattern
          ∨ (opField r.pattern = 0 ∧ opField r'.pattern = 0 ∧ fnField r.pattern ≠ fnField r'.pattern
              ∧ r.mask = 0xFFFF ∧ r'.mask = 0xFFFF))

/-- The words no row selects are those of cases (a) to (f), and each runs as `fail(E_ILLEGAL)` (R64). -/
def Obligations.IllegalWordsFailByCase : Prop :=
  ∀ (w : Word) (s : State),
    ((∀ r ∈ opcodeMap, r.selects w = false) ↔ IllegalCase w)
      ∧ (IllegalCase w → (∀ i, decode w ≠ .ok i) ∧ runWord w s = .next (failed s .illegal))

/-- Words written out from R62 decode to the commands they stand for: one or more a family. -/
def Obligations.WrittenWordsDecode : Prop :=
  decode 0b0000001000000000 = .ok .srst
    ∧ decode 0b0001000010000000 = .ok (.isfirst 128)
    ∧ decode 0b0100000000100111 = .ok (.trlsec 39)
    ∧ decode 0b1010000000000000 = .ok .acdecc
    ∧ decode 0b1011000100000001 = .ok (.classify .trailer 1)
    ∧ decode 0b1100000000000000 = .ok .tview
    ∧ decode 0b1101000100000000 = .ok (.setkind .classic4K)
    ∧ decode 0b1110000001000010 = .ok (.kindq 0x42)

/-! ### The step -/

/-- A step in which the host issues a word that decodes to i is exec of i, and one in which it issues an ILLEGAL word is
`fail(E_ILLEGAL)` (R64); after either, the host's next pin values are on the ports and leave its list (the list and the
idle ports at its end are the model's, log 1). -/
def Obligations.StepRunsTheDecodedCommand : Prop :=
  (∀ (s t : State) (w : Word) (i : Instr), Issues s w → decode w = .ok i → exec i s = .next t →
      step s = .next { regs := t.regs, pins := s.upcoming.headD Pins.idle, upcoming := s.upcoming.tail })
    ∧ (∀ (s : State) (w : Word), Issues s w → IllegalCase w →
      step s = .next
        { regs := (failed s .illegal).regs, pins := s.upcoming.headD Pins.idle, upcoming := s.upcoming.tail })

/-- With RST asserted, a step leaves every register at its reset value, whatever command is presented (R180); what the
registers read while RST stays asserted is the model's choice (log 3), and so are the host's list of next pin values and
the idle ports at its end (log 1). -/
def Obligations.HardResetTakesPrecedence : Prop :=
  ∀ s : State, s.pins.rst = true →
    step s = .next { regs := State.reset.regs, pins := s.upcoming.headD Pins.idle, upcoming := s.upcoming.tail }

/-- A step in which the host presents nothing changes no register (the model's reading of R181, log 2); the host's next
pin values then reach the ports (the list and the idle ports at its end are the model's choice, log 1). -/
def Obligations.IdlePortKeepsRegisters : Prop :=
  ∀ s : State, s.pins.rst = false → s.pins.cmd = none →
    step s = .next { regs := s.regs, pins := s.upcoming.headD Pins.idle, upcoming := s.upcoming.tail }

/-- Every command completes in every state, and so does every step (R164, R187). -/
def Obligations.EveryCommandAndStepCompletes : Prop :=
  (∀ (i : Instr) (s : State), ∃ t, exec i s = .next t) ∧ (∀ s : State, ∃ t, step s = .next t)

/-- After hardware reset STATUS = 0x00, KIND = 0b00 and every result field is 0; after SRST the same with RV = 1 (R36). -/
def Obligations.ResetRegisterValues : Prop :=
  State.reset.regs.status.toBits = 0x00
    ∧ State.reset.regs.status.rv = false ∧ State.reset.regs.status.errs = false ∧ State.reset.regs.status.code = .ok
    ∧ State.reset.regs.kind.toBits = 0b00
    ∧ State.reset.regs.results.res = 0 ∧ State.reset.regs.results.tup = 0 ∧ State.reset.regs.results.prof = 0
    ∧ (∀ i, State.reset.regs.results.perm i = 0)
    ∧ State.reset.regs.results.intv = false ∧ State.reset.regs.results.intok = false
    ∧ (∀ k, k < 6 → State.reset.regs.results.keyA[k]? = some 0)
    ∧ (∀ k, k < 4 → State.reset.regs.results.acr[k]? = some 0)
    ∧ (∀ k, k < 6 → State.reset.regs.results.keyB[k]? = some 0)
    ∧ (∀ s : State, ∃ t, exec .srst s = .next t
        ∧ t.regs = { State.reset.regs with status := { State.reset.regs.status with rv := true } })

/-! ### Whole-machine rules -/

/-- The invariant of the registers holds after a step if it held before it (R24, R30, R32, R163, R181). INTOK is read by
the nibble assignment of R111 (log 6). -/
def Obligations.RegisterInvariantKeptByStep : Prop := ∀ s t : State, s.Inv → step s = .next t → t.Inv

/-- The reset state meets the invariant of the registers (R36). -/
def Obligations.ResetMeetsRegisterInvariant : Prop := State.reset.Inv

/-- What a command leaves in the result fields, CODE and KIND is a function of the command word, DIN and KIND before it:
two machines that agree on these agree afterwards, whatever their other registers held (R45). -/
def Obligations.ResponseIsFunctionOfPortsAndKind : Prop :=
  ∀ (s s' t t' : State) (w : Word), Issues s w → Issues s' w → s'.pins.din = s.pins.din → s'.regs.kind = s.regs.kind →
    step s = .next t → step s' = .next t' →
      t'.regs.results = t.regs.results ∧ t'.regs.status.code = t.regs.status.code ∧ t'.regs.kind = t.regs.kind

/-- STATUS never changes what later commands give: two runs from states that differ in STATUS alone have the same KIND,
result fields and ports after any number of steps (R27); the ports and the list that drives them are the model's
(log 1). -/
def Obligations.StatusNeverReachesLaterResults : Prop :=
  ∀ (n : Nat) (s t t' : State) (st : Status), runSteps n s = .next t →
    runSteps n { s with regs := { s.regs with status := st } } = .next t' →
      t'.regs.results = t.regs.results ∧ t'.regs.kind = t.regs.kind ∧ t'.pins = t.pins ∧ t'.upcoming = t.upcoming

/-- KIND is write-once: SETKIND and KINDQ complete with OK only when no kind is set, fail with E_KIND_LOCKED and leave
KIND otherwise, and a step changes a set kind only by CLRKIND (0x0100), SRST (0x0200) or RST (R143). -/
def Obligations.CardKindIsWriteOnce : Prop :=
  (∀ (s t : State) (k : CardKind), exec (.setkind k) s = .next t →
      (t.regs.status.code = .ok ↔ s.regs.kind = .unset))
    ∧ (∀ (s t : State) (a : Byte), exec (.kindq a) s = .next t →
      (t.regs.status.code = .ok ↔ s.regs.kind = .unset))
    ∧ (∀ (s : State) (k k' : CardKind), s.regs.kind = .set k → exec (.setkind k') s = .next (failed s .kindLocked))
    ∧ (∀ (s : State) (k : CardKind) (a : Byte), s.regs.kind = .set k → exec (.kindq a) s = .next (failed s .kindLocked))
    ∧ (∀ (s t : State) (k : CardKind), s.regs.kind = .set k → step s = .next t → t.regs.kind ≠ .set k →
      s.pins.rst = true ∨ Issues s 0x0100 ∨ Issues s 0x0200)

/-- A step changes KIND only by hardware reset or one of SETKIND, KINDQ, CLRKIND and SRST (R22, column "written by"). -/
def Obligations.OnlyKindWritersChangeKind : Prop :=
  ∀ s t : State, step s = .next t → t.regs.kind ≠ s.regs.kind →
    s.pins.rst = true
      ∨ ∃ w i, Issues s w ∧ decode w = .ok i
          ∧ (i = .clrkind ∨ i = .srst ∨ (∃ k, i = .setkind k) ∨ ∃ a, i = .kindq a)

/-- KIND reads 0b00, 0b10 or 0b11 in every state, never 0b01; CLRKIND, SRST and reset leave 0b00; SETKIND and KINDQ that
complete with OK leave KV = 1 together with K (R24). -/
def Obligations.KindHoldsOnlyLegalValues : Prop :=
  (∀ s : State, hostRead s 0x01 = 0b00 ∨ hostRead s 0x01 = 0b10 ∨ hostRead s 0x01 = 0b11)
    ∧ (∀ s : State, (∃ t, exec .clrkind s = .next t ∧ hostRead t 0x01 = 0b00)
        ∧ (∃ t, exec .srst s = .next t ∧ hostRead t 0x01 = 0b00))
    ∧ hostRead State.reset 0x01 = 0b00
    ∧ (∀ s t : State, s.pins.rst = true → step s = .next t → hostRead t 0x01 = 0b00)
    ∧ (∀ (s t : State) (k : CardKind), exec (.setkind k) s = .next t → t.regs.status.code = .ok →
        hostRead t 0x01 = (match k with | .classic1K => 0b10 | .classic4K => 0b11))
    ∧ (∀ (s t : State) (a : Byte), exec (.kindq a) s = .next t → t.regs.status.code = .ok →
        hostRead t 0x01 = if a.toNat = 2 then 0b11 else 0b10)

/-- RV is 1 after any command; a non-zero CODE sets ERRS; ERRS, once set, is cleared only by RST or SRST (R26). -/
def Obligations.ErrsIsStickyUntilReset : Prop :=
  (∀ (s t : State) (w : Word), Issues s w → step s = .next t →
      t.regs.status.rv = true ∧ (t.regs.status.code ≠ .ok → t.regs.status.errs = true))
    ∧ (∀ s t : State, step s = .next t → s.regs.status.errs = true → t.regs.status.errs = false →
      s.pins.rst = true ∨ Issues s 0x0200)

/-- A command that ends with an error leaves KIND as it was, zeroes every result field and sets RV and ERRS (R163). -/
def Obligations.FailedCommandLeavesOnlyItsCode : Prop :=
  ∀ (s t : State) (w : Word), Issues s w → step s = .next t → t.regs.status.code ≠ .ok →
    t.regs = (failed s t.regs.status.code).regs

/-- Which commands give which completion code, in every state; and no code beyond 4 is ever read (R160). -/
def Obligations.CompletionCodesByCommand : Prop :=
  (∀ (i : Instr) (s t : State), exec i s = .next t →
      t.regs.status.code ≠ .illegal
        ∧ (t.regs.status.code = .range →
            (∃ b : BlockIndex, i = .trlfst b ∧ 255 < b.toNat + 15)
              ∨ ∃ (sec : SectorIndex) (k : CardKind), i = .trlsec sec ∧ s.regs.kind = .set k
                  ∧ (match k with | .classic1K => 16 | .classic4K => 40) ≤ sec.toNat)
        ∧ (t.regs.status.code = .kindUnset →
            s.regs.kind = .unset ∧ ((∃ sec, i = .trlsec sec) ∨ ∃ b, i = .chkblk b))
        ∧ (t.regs.status.code = .kindLocked →
            s.regs.kind ≠ .unset ∧ ((∃ k, i = .setkind k) ∨ ∃ a, i = .kindq a)))
    ∧ (∀ s : State, (hostRead s 0x00).toNat % 64 ≤ 4)

/-! ### Geometry -/

/-- ISFIRST (R81). -/
def Obligations.IsfirstTellsFirstBlocks : Prop :=
  ∀ (b : BlockIndex) (s : State),
    (encode (.isfirst b)).toNat = 0x1000 + b.toNat
      ∧ exec (.isfirst b) s = .next (succeeded s s.regs.kind
          (resOnly (if (b.toNat < 128 ∧ 4 ∣ b.toNat) ∨ (128 ≤ b.toNat ∧ 16 ∣ b.toNat) then 1 else 0)))

/-- ISTRL (R82): b + 1 is a natural, so block 255 is a trailer. -/
def Obligations.IstrlTellsTrailerBlocks : Prop :=
  ∀ (b : BlockIndex) (s : State),
    (encode (.istrl b)).toNat = 0x2000 + b.toNat
      ∧ exec (.istrl b) s = .next (succeeded s s.regs.kind
          (resOnly (if (b.toNat < 128 ∧ 4 ∣ b.toNat + 1) ∨ (128 ≤ b.toNat ∧ 16 ∣ b.toNat + 1) then 1 else 0)))

/-- TRLFST (R83): the formula for every b up to 240, a first block or not; E_RANGE from 241 on. -/
def Obligations.TrlfstAddsOrFailsRange : Prop :=
  ∀ (b : BlockIndex) (s : State),
    (encode (.trlfst b)).toNat = 0x3000 + b.toNat
      ∧ (b.toNat < 128 → exec (.trlfst b) s = .next (succeeded s s.regs.kind (resOnly (b.toNat + 3))))
      ∧ (128 ≤ b.toNat → b.toNat ≤ 240 → exec (.trlfst b) s = .next (succeeded s s.regs.kind (resOnly (b.toNat + 15))))
      ∧ (241 ≤ b.toNat → exec (.trlfst b) s = .next (failed s .range))

/-- TRLSEC (R84), with the checks in the order of R166: kind unset first, then range, then the formula of the kind. -/
def Obligations.TrlsecByKindAndSector : Prop :=
  ∀ (sec : SectorIndex) (s : State),
    (encode (.trlsec sec)).toNat = 0x4000 + sec.toNat
      ∧ (s.regs.kind = .unset → exec (.trlsec sec) s = .next (failed s .kindUnset))
      ∧ (s.regs.kind = .set .classic1K → sec.toNat < 16 →
          exec (.trlsec sec) s = .next (succeeded s s.regs.kind (resOnly (4 * sec.toNat + 3))))
      ∧ (s.regs.kind = .set .classic1K → 16 ≤ sec.toNat → exec (.trlsec sec) s = .next (failed s .range))
      ∧ (s.regs.kind = .set .classic4K → sec.toNat < 32 →
          exec (.trlsec sec) s = .next (succeeded s s.regs.kind (resOnly (4 * sec.toNat + 3))))
      ∧ (s.regs.kind = .set .classic4K → 32 ≤ sec.toNat → sec.toNat < 40 →
          exec (.trlsec sec) s = .next (succeeded s s.regs.kind (resOnly (128 + 16 * (sec.toNat - 32) + 15))))
      ∧ (s.regs.kind = .set .classic4K → 40 ≤ sec.toNat → exec (.trlsec sec) s = .next (failed s .range))

/-- SECOF (R85): RES is the one sector number s whose blocks, by the layout of R46, hold b; no capacity check. -/
def Obligations.SecofIsTheSectorHoldingTheBlock : Prop :=
  ∀ (b : BlockIndex) (s : State),
    (encode (.secof b)).toNat = 0x5000 + b.toNat
      ∧ ∃ n : Nat, exec (.secof b) s = .next (succeeded s s.regs.kind (resOnly n))
          ∧ n = (if b.toNat < 128 then b.toNat / 4 else 32 + (b.toNat - 128) / 16)
          ∧ (b.toNat < 128 → n < 32 ∧ 4 * n ≤ b.toNat ∧ b.toNat < 4 * n + 4)
          ∧ (128 ≤ b.toNat → 32 ≤ n ∧ n < 40 ∧ 128 + 16 * (n - 32) ≤ b.toNat ∧ b.toNat < 128 + 16 * (n - 32) + 16)

/-- FSTOF (R86): the first block of b's sector. -/
def Obligations.FstofIsTheFirstBlockOfTheSector : Prop :=
  ∀ (b : BlockIndex) (s : State),
    (encode (.fstof b)).toNat = 0x6000 + b.toNat
      ∧ ∃ f : BlockIndex, exec (.fstof b) s = .next (succeeded s s.regs.kind (resOnly f.toNat))
          ∧ f.toNat = (if b.toNat < 128 then b.toNat - b.toNat % 4 else b.toNat - b.toNat % 16)
          ∧ f.toNat ≤ b.toNat ∧ commandResult (.isfirst f) s = some 1

/-- SECSZ (R87). -/
def Obligations.SecszIsFourOrSixteen : Prop :=
  ∀ (b : BlockIndex) (s : State),
    (encode (.secsz b)).toNat = 0x7000 + b.toNat
      ∧ (b.toNat < 128 → exec (.secsz b) s = .next (succeeded s s.regs.kind (resOnly 4)))
      ∧ (128 ≤ b.toNat → exec (.secsz b) s = .next (succeeded s s.regs.kind (resOnly 16)))

/-- CHKBLK (R88): E_KIND_UNSET without a kind; else whether b lies in the card, 64 blocks on 1K, all on 4K. -/
def Obligations.ChkblkTellsCapacity : Prop :=
  ∀ (b : BlockIndex) (s : State),
    (encode (.chkblk b)).toNat = 0x8000 + b.toNat
      ∧ (s.regs.kind = .unset → exec (.chkblk b) s = .next (failed s .kindUnset))
      ∧ (s.regs.kind = .set .classic1K → b.toNat < 64 →
          exec (.chkblk b) s = .next (succeeded s s.regs.kind (resOnly 1)))
      ∧ (s.regs.kind = .set .classic1K → 64 ≤ b.toNat →
          exec (.chkblk b) s = .next (succeeded s s.regs.kind (resOnly 0)))
      ∧ (s.regs.kind = .set .classic4K → exec (.chkblk b) s = .next (succeeded s s.regs.kind (resOnly 1)))

/-- The laws (a) to (e) of the geometry commands (R89), over what the commands give. -/
def Obligations.GeometryCommandsAgree : Prop :=
  ∀ (b : BlockIndex) (s : State),
    -- (a) no block is first and trailer at once, and both commands answer 0 or 1
    ((commandResult (.isfirst b) s = some 1 ∨ commandResult (.isfirst b) s = some 0)
      ∧ (commandResult (.istrl b) s = some 1 ∨ commandResult (.istrl b) s = some 0)
      ∧ ¬(commandResult (.isfirst b) s = some 1 ∧ commandResult (.istrl b) s = some 1))
    -- (b) TRLFST of FSTOF(b) is the least trailer from b on
    ∧ (∃ f t : BlockIndex, commandResult (.fstof b) s = some (BitVec.ofNat 16 f.toNat)
        ∧ commandResult (.trlfst f) s = some (BitVec.ofNat 16 t.toNat) ∧ b.toNat ≤ t.toNat
        ∧ commandResult (.istrl t) s = some 1
        ∧ (∀ u : BlockIndex, b.toNat ≤ u.toNat → u.toNat < t.toNat → commandResult (.istrl u) s = some 0)
        -- (c) it is TRLSEC of SECOF(b), whenever TRLSEC succeeds, as it does for every b on 4K and b < 64 on 1K
        ∧ (∃ sec : SectorIndex, commandResult (.secof b) s = some (BitVec.ofNat 16 sec.toNat)
            ∧ (∀ v, commandResult (.trlsec sec) s = some v → v = BitVec.ofNat 16 t.toNat)
            ∧ (s.regs.kind = .set .classic4K → (commandResult (.trlsec sec) s).isSome = true)
            ∧ (s.regs.kind = .set .classic1K → b.toNat < 64 → (commandResult (.trlsec sec) s).isSome = true))
        -- (e) FSTOF(b) + SECSZ(b) - 1 is that trailer
        ∧ (∃ n : Nat, commandResult (.secsz b) s = some (BitVec.ofNat 16 n) ∧ 0 < n ∧ f.toNat + n - 1 = t.toNat))
    -- (d) SECOF inverts TRLSEC on the sectors of the card
    ∧ (∀ (k : CardKind) (sec : SectorIndex), s.regs.kind = .set k →
        sec.toNat < (match k with | .classic1K => 16 | .classic4K => 40) →
        ∃ (t f : BlockIndex) (n : Nat), commandResult (.trlsec sec) s = some (BitVec.ofNat 16 t.toNat)
          ∧ commandResult (.secof t) s = some (BitVec.ofNat 16 sec.toNat)
          ∧ commandResult (.istrl t) s = some 1
          ∧ commandResult (.secsz t) s = some (BitVec.ofNat 16 n) ∧ (n = 4 ∨ n = 16)
          ∧ commandResult (.fstof t) s = some (BitVec.ofNat 16 f.toNat) ∧ t.toNat + 1 = f.toNat + n)

/-- In a 4-block sector with first block f, tuple i governs block f + i, and tuple 3 the trailer (R133). -/
def Obligations.SmallSectorTupleGovernsItsBlock : Prop :=
  ∀ b : BlockIndex, b.toNat < 128 →
    firstBlockOf b.toNat + (governingTuple b).val = b.toNat
      ∧ ((governingTuple b).val = 3 ↔ blockRole b = .trailer)

/-! ### Access decoder and trailer view -/

/-- ACDEC (R112): the decode of AC = DIN[0..3] into TUP, PROF, PERM0..3 and ACR, every other result field 0. -/
def Obligations.AcdecDecodesLeniently : Prop :=
  encode .acdec = 0x9000 ∧
  ∀ s : State, ∃ t, exec .acdec s = .next t ∧ DecodedFrame s t
    ∧ DecodeOf s.pins.din[1] s.pins.din[2] t.regs.results
    ∧ (∀ k, k < 4 → t.regs.results.acr[k]? = s.pins.din[k]?)
    ∧ t.regs.results.res = 0 ∧ t.regs.results.intv = false ∧ t.regs.results.intok = false
    ∧ t.regs.results.keyA = Results.zero.keyA ∧ t.regs.results.keyB = Results.zero.keyB

/-- ACDECC (R113): ACDEC's outputs, INTV = 1, and INTOK = 1 exactly when the integrity function holds (R111, whose nibble
assignment is general knowledge: log 6); it never fails. -/
def Obligations.AcdeccReportsIntegrity : Prop :=
  encode .acdecc = 0xA000 ∧
  ∀ s : State, ∃ t t', exec .acdecc s = .next t ∧ exec .acdec s = .next t' ∧ DecodedFrame s t
    ∧ DecodeOf s.pins.din[1] s.pins.din[2] t.regs.results
    ∧ (∀ k, k < 4 → t.regs.results.acr[k]? = s.pins.din[k]?)
    ∧ t.regs.results.intv = true
    ∧ (t.regs.results.intok = true ↔ IntegrityHolds s.pins.din[0] s.pins.din[1] s.pins.din[2])
    ∧ { t.regs.results with intv := false, intok := false } = t'.regs.results

/-- CLASS (R114): RES and PROF[3:0] are the code 8*role + t, PERM0 is the printed matrix, every other result field 0. -/
def Obligations.ClassGivesCodeAndMatrix : Prop :=
  ∀ (r : Role) (t : TupleValue) (s : State),
    (encode (.classify r t)).toNat = 0xB000 + 32 * roleBase r + t.toNat
      ∧ exec (.classify r t) s = .next (succeeded s s.regs.kind
          { Results.zero with
            res := BitVec.ofNat 16 (roleBase r + t.toNat)
            prof := BitVec.ofNat 16 (roleBase r + t.toNat)
            perm0 := printedMatrix r t.toNat })

/-- The decode depends on AC[1][7:4] and AC[2] alone: two DIN values that agree there give ACDEC and ACDECC (AC at
DIN[0..3]) and TVIEW (AC at DIN[6..9]) the same TUP, PROF and PERM0..3, and no AC value makes one fail (R101). -/
def Obligations.DecodeIgnoresInversesAndUserByte : Prop :=
  ∀ (i : Instr) (s : State) (d : Din),
    (((i = .acdec ∨ i = .acdecc) ∧ d[1].extractLsb' 4 4 = s.pins.din[1].extractLsb' 4 4 ∧ d[2] = s.pins.din[2])
      ∨ (i = .tview ∧ d[7].extractLsb' 4 4 = s.pins.din[7].extractLsb' 4 4 ∧ d[8] = s.pins.din[8])) →
    ∃ t t', exec i s = .next t ∧ exec i (drivenWith s d) = .next t'
      ∧ t'.regs.results.tup = t.regs.results.tup ∧ t'.regs.results.prof = t.regs.results.prof
      ∧ (∀ j, t'.regs.results.perm j = t.regs.results.perm j)
      ∧ t'.regs.status.code = .ok ∧ t.regs.status.code = .ok

/-- INTOK in nibble form (R115 (e)): AC[0] is the complement of AC[2][3:0], AC[1][7:4], and AC[1][3:0] that of
AC[2][7:4]. The nibble assignment is R111's, from general knowledge (log 6). -/
def Obligations.IntegrityInNibbleForm : Prop :=
  ∀ s t : State, exec .acdecc s = .next t →
    (t.regs.results.intok = true ↔
      s.pins.din[0] = ~~~(s.pins.din[2].extractLsb' 0 4 ++ s.pins.din[1].extractLsb' 4 4)
        ∧ s.pins.din[1].extractLsb' 0 4 = ~~~(s.pins.din[2].extractLsb' 4 4))

/-- An AC field whose one set bit is a direct bit of block i sets that one bit of TUP (R115 (a)): AC[1][i+4] sets c1(i)
= TUP[3i+2], AC[2][i] sets c2(i) = TUP[3i+1], AC[2][i+4] sets c3(i) = TUP[3i]. -/
def Obligations.OneDirectBitSetsOneTupleBit : Prop :=
  ∀ (s : State) (i : Fin 4),
    ((s.pins.din[1] = 1#8 <<< (i.val + 4) → s.pins.din[2] = 0 →
        ∃ t, exec .acdec s = .next t ∧ t.regs.results.tup = 1#12 <<< (3 * i.val + 2))
      ∧ (s.pins.din[1] = 0 → s.pins.din[2] = 1#8 <<< i.val →
        ∃ t, exec .acdec s = .next t ∧ t.regs.results.tup = 1#12 <<< (3 * i.val + 1))
      ∧ (s.pins.din[1] = 0 → s.pins.din[2] = 1#8 <<< (i.val + 4) →
        ∃ t, exec .acdec s = .next t ∧ t.regs.results.tup = 1#12 <<< (3 * i.val)))

/-- No trailer profile grants KEYA_READ, and no data profile grants a right to Key A alone (R115 (c), (d)), in what CLASS
writes to PERM0 and what ACDEC, ACDECC and TVIEW write to PERM0..3. -/
def Obligations.NoProfileReadsKeyAOrGrantsDataToKeyAAlone : Prop :=
  (∀ (t : TupleValue) (s u : State), exec (.classify .trailer t) s = .next u →
      u.regs.results.perm0.extractLsb' 0 2 = 0)
    ∧ (∀ (t : TupleValue) (s u : State) (j : Fin 4), exec (.classify .data t) s = .next u →
      u.regs.results.perm0.extractLsb' (2 * j.val) 2 ≠ 0b01)
    ∧ (∀ (i : Instr) (s u : State), (i = .acdec ∨ i = .acdecc ∨ i = .tview) → exec i s = .next u →
      u.regs.results.perm3.extractLsb' 0 2 = 0
        ∧ ∀ b j : Fin 4, b ≠ 3 → (u.regs.results.perm b).extractLsb' (2 * j.val) 2 ≠ 0b01
            ∧ (u.regs.results.perm b).extractLsb' 8 4 = 0)

/-- Classification is total and the 16 codes are distinct, so role and tuple can be read back from RES (R105, R106). -/
def Obligations.ProfileCodeRecoversRoleAndTuple : Prop :=
  ∀ (r : Role) (t : TupleValue) (s : State), ∃ v, commandResult (.classify r t) s = some v
    ∧ v.toNat % 8 = t.toNat ∧ v.toNat / 8 = roleBase r / 8
    ∧ ∀ (r' : Role) (t' : TupleValue), commandResult (.classify r' t') s = some v → r' = r ∧ t' = t

/-- TVIEW (R131): the keys and AC bytes of the trailer on DIN, and the lenient decode of the AC bytes. -/
def Obligations.TviewSplitsAndDecodesTheTrailer : Prop :=
  encode .tview = 0xC000 ∧
  ∀ s : State, ∃ t, exec .tview s = .next t ∧ DecodedFrame s t
    ∧ (∀ k, k < 6 → t.regs.results.keyA[k]? = s.pins.din[k]?)
    ∧ (∀ k, k < 4 → t.regs.results.acr[k]? = s.pins.din[6 + k]?)
    ∧ (∀ k, k < 6 → t.regs.results.keyB[k]? = s.pins.din[10 + k]?)
    ∧ DecodeOf s.pins.din[7] s.pins.din[8] t.regs.results
    ∧ t.regs.results.res = 0 ∧ t.regs.results.intv = false ∧ t.regs.results.intok = false

/-- TVIEW of a trailer in one state and ACDEC of its AC field in another, whatever their registers, give the same TUP,
PROF, PERM0..3 and ACR (R132). -/
def Obligations.TviewAgreesWithAcdec : Prop :=
  ∀ s s' : State, (∀ k, k < 4 → s'.pins.din[k]? = s.pins.din[6 + k]?) →
    ∃ t t', exec .tview s = .next t ∧ exec .acdec s' = .next t'
      ∧ t.regs.results.tup = t'.regs.results.tup ∧ t.regs.results.prof = t'.regs.results.prof
      ∧ (∀ i, t.regs.results.perm i = t'.regs.results.perm i) ∧ t.regs.results.acr = t'.regs.results.acr

/-! ### Control -/

/-- NOP (R140): every result field 0, KIND and ERRS as they were. -/
def Obligations.NopClearsResults : Prop :=
  encode .nop = 0x0000 ∧ ∀ s : State, exec .nop s = .next (succeeded s s.regs.kind Results.zero)

/-- CLRKIND (R141): KIND unset, every result field 0, whether a kind was set or not. -/
def Obligations.ClrkindUnsetsKind : Prop :=
  encode .clrkind = 0x0100 ∧ ∀ s : State, exec .clrkind s = .next (succeeded s .unset Results.zero)

/-- SRST (R142): STATUS = 0x80 and every other register as hardware reset leaves it; no other command clears ERRS. -/
def Obligations.SrstIsResetWithResponse : Prop :=
  encode .srst = 0x0200
    ∧ (∀ s : State, ∃ t, exec .srst s = .next t ∧ t.regs.status.toBits = 0x80
        ∧ t.regs.kind = State.reset.regs.kind ∧ t.regs.results = State.reset.regs.results
        ∧ t.pins = s.pins ∧ t.upcoming = s.upcoming)
    ∧ (∀ (i : Instr) (s t : State), exec i s = .next t → s.regs.status.errs = true → t.regs.status.errs = false →
        i = .srst)

/-- SETKIND (R144): sets the kind and RES = k when none is set; E_KIND_LOCKED otherwise, even for the same kind. -/
def Obligations.SetkindSetsOrIsLocked : Prop :=
  encode (.setkind .classic1K) = 0xD000 ∧ encode (.setkind .classic4K) = 0xD100 ∧
  ∀ s : State,
    (s.regs.kind = .unset →
        exec (.setkind .classic1K) s = .next (succeeded s (.set .classic1K) (resOnly 0))
          ∧ exec (.setkind .classic4K) s = .next (succeeded s (.set .classic4K) (resOnly 1)))
      ∧ (∀ k k', s.regs.kind = .set k → exec (.setkind k') s = .next (failed s .kindLocked))

/-- KINDQ (R146, with the whole-byte test of R145): 0x02 sets 4K, every other byte 1K; E_KIND_LOCKED when a kind is
set. -/
def Obligations.KindqSetsByWholeByteOrIsLocked : Prop :=
  ∀ (a : Byte) (s : State),
    (encode (.kindq a)).toNat = 0xE000 + a.toNat
      ∧ (s.regs.kind = .unset → a.toNat = 2 →
          exec (.kindq a) s = .next (succeeded s (.set .classic4K) (resOnly 1)))
      ∧ (s.regs.kind = .unset → a.toNat ≠ 2 →
          exec (.kindq a) s = .next (succeeded s (.set .classic1K) (resOnly 0)))
      ∧ (∀ k, s.regs.kind = .set k → exec (.kindq a) s = .next (failed s .kindLocked))

/-- Changing card (R184): after CLRKIND or SRST a new SETKIND or KINDQ takes effect; without it, the new kind write fails
with E_KIND_LOCKED and KIND keeps the old card's kind. -/
def Obligations.CardChangeNeedsClear : Prop :=
  ∀ (s : State) (old new : CardKind) (clear write : Instr) (d d' : Din), s.regs.kind = .set old →
    (clear = .clrkind ∨ clear = .srst) →
    (write = .setkind new ∨ ∃ a : Byte, write = .kindq a ∧ (new = .classic4K ↔ a.toNat = 2)) →
      (∃ t, runSteps 2 (withBeats s [issue clear d, issue write d']) = .next t
          ∧ t.regs.kind = .set new ∧ t.regs.status.code = .ok)
        ∧ (∃ t, runSteps 1 (withBeats s [issue write d']) = .next t
          ∧ t.regs.kind = .set old ∧ t.regs.status.code = .kindLocked)

/-! ### Ports, host reads, runs -/

/-- The host read map (R35), every address: narrow values zero-extended, byte pairs with the lower-numbered byte in bits
[7:0], 0 from 0x12 on. -/
def Obligations.ReadMapReturnsEveryRegister : Prop :=
  ∀ s : State,
    (hostRead s 0x00).toNat = 128 * s.regs.status.rv.toNat + 64 * s.regs.status.errs.toNat + s.regs.status.code.toBits.toNat
      ∧ (hostRead s 0x01).toNat = (match s.regs.kind with | .unset => 0 | .set .classic1K => 2 | .set .classic4K => 3)
      ∧ hostRead s 0x02 = s.regs.results.res
      ∧ (hostRead s 0x03).toNat = s.regs.results.tup.toNat
      ∧ hostRead s 0x04 = s.regs.results.prof
      ∧ (∀ i : Fin 4, (hostRead s (BitVec.ofNat 5 (0x05 + i.val))).toNat = (s.regs.results.perm i).toNat)
      ∧ (hostRead s 0x09).toNat = 2 * s.regs.results.intok.toNat + s.regs.results.intv.toNat
      ∧ (∀ j, j < 3 → ∃ low high, s.regs.results.keyA[2 * j]? = some low ∧ s.regs.results.keyA[2 * j + 1]? = some high
          ∧ (hostRead s (BitVec.ofNat 5 (0x0A + j))).toNat = low.toNat + 256 * high.toNat)
      ∧ (∀ j, j < 2 → ∃ low high, s.regs.results.acr[2 * j]? = some low ∧ s.regs.results.acr[2 * j + 1]? = some high
          ∧ (hostRead s (BitVec.ofNat 5 (0x0D + j))).toNat = low.toNat + 256 * high.toNat)
      ∧ (∀ j, j < 3 → ∃ low high, s.regs.results.keyB[2 * j]? = some low ∧ s.regs.results.keyB[2 * j + 1]? = some high
          ∧ (hostRead s (BitVec.ofNat 5 (0x0F + j))).toNat = low.toNat + 256 * high.toNat)
      ∧ (∀ a : BitVec 5, 0x12 ≤ a.toNat → hostRead s a = 0)

/-- DINBUS (R41): byte k of DIN occupies bits 8k+7..8k, and the bus and the bytes determine each other. -/
def Obligations.DinBusLanesAreBytes : Prop :=
  (∀ (bus : BitVec 128) (k : Nat), k < 16 → (dinOfBus bus)[k]? = some (bus.extractLsb' (8 * k) 8))
    ∧ (∀ bus : BitVec 128, busOfDin (dinOfBus bus) = bus) ∧ (∀ d : Din, dinOfBus (busOfDin d) = d)

/-- Commands ignore the DIN bytes that are no operand of theirs: all of DIN for every command but TVIEW, ACDEC and ACDECC,
and DIN[4..15] for these last two (R41, R42). -/
def Obligations.UnusedDinBytesAreIgnored : Prop :=
  ∀ (i : Instr) (s : State) (d : Din), i ≠ .tview →
    ((i = .acdec ∨ i = .acdecc) → ∀ k, k < 4 → d[k]? = s.pins.din[k]?) →
      ∃ t t', exec i s = .next t ∧ exec i (drivenWith s d) = .next t' ∧ t'.regs = t.regs

/-- Repeating a command other than SETKIND, KINDQ, CLRKIND and SRST with the same inputs gives the same result fields,
code and KIND (R45). -/
def Obligations.RepeatedCommandGivesSameResults : Prop :=
  ∀ (i : Instr) (s t u : State), (∀ k, i ≠ .setkind k) → (∀ a, i ≠ .kindq a) → i ≠ .clrkind → i ≠ .srst →
    exec i s = .next t → exec i t = .next u →
      u.regs.results = t.regs.results ∧ u.regs.status.code = t.regs.status.code ∧ u.regs.kind = t.regs.kind

/-- A run of what the host drives is the fold of MCAD's response to each entry, in the order driven: order is the only
control flow and nothing but the registers passes from one command to the next (R21, R22, R51; the list is the model's,
log 1). -/
def Obligations.RunIsFoldOfResponses : Prop :=
  ∀ (ps : List Pins) (s : State),
    runSteps ps.length (withBeats s ps) = .next { regs := ps.foldl respond s.regs, pins := Pins.idle, upcoming := [] }

/-- ERRS = 0 after a sequence of commands says that none of them failed: over any host sequence with no RST and no SRST,
ERRS ends at 0 exactly when it began at 0 and every command in it completed with OK (R167, R26). The list of pin values
is the model's (log 1). -/
def Obligations.ErrsWitnessesEveryFailure : Prop :=
  ∀ (ps : List Pins) (r : Registers), (∀ p ∈ ps, p.rst = false ∧ p.cmd ≠ some 0x0200) →
    ((ps.foldl respond r).status.errs = false ↔
      r.status.errs = false
        ∧ ∀ (before after : List Pins) (p : Pins), ps = before ++ p :: after → p.cmd.isSome = true →
            ((before ++ [p]).foldl respond r).status.code = .ok)

/-- Every command written in assembler syntax with its own operands assembles to its word with RST low (R66), with DIN as
written for the commands that take one. -/
def Obligations.AssembledCommandIsItsWord : Prop :=
  ∀ (i : Instr) (bytes : List Nat), bytes.length = 16 → (∀ n ∈ bytes, n < 256) →
    ∃ p, assemble { op := i.mnemonic, operands := i.operands, din := if i.mnemonic.takesDin then some bytes else none }
        = some p
      ∧ p.rst = false ∧ p.cmd = some (encode i)
      ∧ (i.mnemonic.takesDin = true → ∀ k, k < 16 → p.din[k]? = (bytes[k]?).map (BitVec.ofNat 8))

/-- The pseudo-command integrity_check (R67): after its commands, the word at INTOK's address reads 3 when the AC bytes
pass the check of R111 and 1 when they do not. R111's nibble assignment is general knowledge (log 6), and
the list that places the commands is the model's (log 1). -/
def Obligations.IntegrityCheckPseudoReadsIntok : Prop :=
  ∀ (ac : AcBytes) (s : State), ∃ (t : State) (a : BitVec 5),
    runSteps (expand (.integrityCheck ac)).length (withBeats s (expand (.integrityCheck ac))) = .next t
      ∧ resultAddress (.integrityCheck ac) = some a
      ∧ (hostRead t a = 3 ∨ hostRead t a = 1)
      ∧ (hostRead t a = 3 ↔ IntegrityHolds ac[0] ac[1] ac[2])
end

