-- ==== Sys2Proof/Laws/Decode.lean ====
section
/-! SUPPORT. The fields of a word put together from a high byte (OP and FN) and a low byte (IMM). -/

namespace Sys2Proof

/-- A word of two bytes as a number. -/
theorem word_toNat (high low : Byte) : (high ++ low : Word).toNat = 256 * high.toNat + low.toNat := by
  have h : (high ++ low : Word).toNat = high.toNat <<< 8 ||| low.toNat := BitVec.toNat_append high low
  rw [h, ← Nat.shiftLeft_add_eq_or_of_lt low.isLt, Nat.shiftLeft_eq]
  omega

/-- The fields of a word as numbers (R60). -/
theorem immField_toNat (w : Word) : (immField w).toNat = w.toNat % 256 := by
  simp [immField, BitVec.extractLsb'_toNat]

theorem fnField_toNat (w : Word) : (fnField w).toNat = w.toNat / 256 % 16 := by
  simp [fnField, BitVec.extractLsb'_toNat, Nat.shiftRight_eq_div_pow]

theorem opField_toNat (w : Word) : (opField w).toNat = w.toNat / 4096 := by
  have h := w.isLt
  simp only [opField, BitVec.extractLsb'_toNat, Nat.shiftRight_eq_div_pow]
  omega

theorem immField_append (high low : Byte) : immField (high ++ low) = low := by
  apply BitVec.eq_of_toNat_eq
  rw [immField_toNat, word_toNat]
  have := low.isLt
  omega

theorem fnField_append (high low : Byte) : fnField (high ++ low) = high.extractLsb' 0 4 := by
  apply BitVec.eq_of_toNat_eq
  rw [fnField_toNat, word_toNat]
  simp only [BitVec.extractLsb'_toNat, Nat.shiftRight_eq_div_pow]
  have := low.isLt
  omega

theorem opField_append (high low : Byte) : opField (high ++ low) = high.extractLsb' 4 4 := by
  apply BitVec.eq_of_toNat_eq
  rw [opField_toNat, word_toNat]
  simp only [BitVec.extractLsb'_toNat, Nat.shiftRight_eq_div_pow]
  have := low.isLt
  have := high.isLt
  omega

/-- Every operand of a command is in the range of R61: the types hold the widths. -/
theorem Instr.wellFormed_of_type (i : Instr) : i.wellFormed = true := by
  cases i with
  | classify r t =>
    cases r <;>
      simp [Instr.wellFormed, Instr.mnemonic, Instr.operands, Mnemonic.operandKinds, operandsInRange, OperandKind.bound,
        Role.bit, BitVec.isLt t]
  | setkind k => cases k <;> rfl
  | _ =>
    first
    | rfl
    | (simp only [Instr.wellFormed, Instr.mnemonic, Instr.operands, Mnemonic.operandKinds, operandsInRange,
        OperandKind.bound, Bool.and_true]
       exact decide_eq_true (BitVec.isLt _))

end Sys2Proof
end

