-- ==== Sys2Proof/Laws/Decoder.lean ====
section
/-! SUPPORT. Tuples, codes and the shared decode step: what each says once. -/

namespace Sys2Proof.Machine

open Sys2Proof

/-- The tuple value is `4*c1 + 2*c2 + c3` (R15). -/
theorem tupleValue_toNat (t : AccessTuple) :
    (tupleValue t).toNat = 4 * t.c1.toNat + 2 * t.c2.toNat + t.c3.toNat := by
  rcases t with ⟨c1, c2, c3⟩
  cases c1 <;> cases c2 <;> cases c3 <;> rfl

theorem tupleOfValue_tupleValue (t : AccessTuple) : tupleOfValue (tupleValue t) = t := by
  rcases t with ⟨c1, c2, c3⟩
  cases c1 <;> cases c2 <;> cases c3 <;> rfl

theorem tupleValue_tupleOfValue : ∀ v : TupleValue, tupleValue (tupleOfValue v) = v := by decide

/-- The profile code is `8*role + t` (R106). -/
theorem profileCode_toNat (r : Role) : ∀ v : TupleValue, (profileCode r v).toNat = 8 * r.bit.toNat + v.toNat := by
  cases r <;> decide

@[simp] theorem decodeIntoResults_tup (ac : AcBytes) (r : Results) : (decodeIntoResults ac r).tup = packTuples ac := rfl
@[simp] theorem decodeIntoResults_prof (ac : AcBytes) (r : Results) : (decodeIntoResults ac r).prof = packProfiles ac := rfl
@[simp] theorem decodeIntoResults_acr (ac : AcBytes) (r : Results) : (decodeIntoResults ac r).acr = ac := rfl
@[simp] theorem decodeIntoResults_res (ac : AcBytes) (r : Results) : (decodeIntoResults ac r).res = r.res := rfl
@[simp] theorem decodeIntoResults_intv (ac : AcBytes) (r : Results) : (decodeIntoResults ac r).intv = r.intv := rfl
@[simp] theorem decodeIntoResults_intok (ac : AcBytes) (r : Results) : (decodeIntoResults ac r).intok = r.intok := rfl
@[simp] theorem decodeIntoResults_keyA (ac : AcBytes) (r : Results) : (decodeIntoResults ac r).keyA = r.keyA := rfl
@[simp] theorem decodeIntoResults_keyB (ac : AcBytes) (r : Results) : (decodeIntoResults ac r).keyB = r.keyB := rfl

/-- PERMi after the shared decode step (R116). -/
theorem decodeIntoResults_perm (ac : AcBytes) (r : Results) (i : Fin 4) :
    (decodeIntoResults ac r).perm i = acMatrix ac i.val := by
  fin_cases i <;> rfl

end Sys2Proof.Machine
end

