-- ==== Sys2Proof/Laws/Geometry.lean ====
section
/-! SUPPORT. Bounds of the geometry functions: every scalar they answer within the card fits a BlockIndex, so `zext16`
loses nothing (R11). -/

namespace Sys2Proof.Machine

open Sys2Proof

theorem zext16_toNat (n : Nat) (h : n < 65536) : (zext16 n).toNat = n := by
  simp [zext16, BitVec.toNat_ofNat, Nat.mod_eq_of_lt h]

theorem boolNat_le_one (b : Bool) : boolNat b ≤ 1 := by cases b <;> simp [boolNat]

/-- A block is first in its sector: a multiple of 4 below 128, a multiple of 16 from 128 on (R81). -/
theorem isFirstBlock_iff (b : Nat) : isFirstBlock b = true ↔ (b < 128 ∧ b % 4 = 0) ∨ (128 ≤ b ∧ b % 16 = 0) := by
  simp [isFirstBlock]

/-- A block is its sector's trailer (R82). -/
theorem isTrailerBlock_iff (b : Nat) :
    isTrailerBlock b = true ↔ (b < 128 ∧ (b + 1) % 4 = 0) ∨ (128 ≤ b ∧ (b + 1) % 16 = 0) := by
  simp [isTrailerBlock]

theorem sectorSize_small {b : Nat} (h : b < 128) : sectorSize b = 4 := if_pos h
theorem sectorSize_big {b : Nat} (h : 128 ≤ b) : sectorSize b = 16 := if_neg (Nat.not_lt.mpr h)
theorem trailerOfSectorFirst_small {b : Nat} (h : b < 128) : trailerOfSectorFirst b = b + 3 := if_pos h
theorem trailerOfSectorFirst_big {b : Nat} (h : 128 ≤ b) : trailerOfSectorFirst b = b + 15 := if_neg (Nat.not_lt.mpr h)
theorem sectorOfBlock_small {b : Nat} (h : b < 128) : sectorOfBlock b = b / 4 := if_pos h
theorem sectorOfBlock_big {b : Nat} (h : 128 ≤ b) : sectorOfBlock b = 32 + (b - 128) / 16 := if_neg (Nat.not_lt.mpr h)
theorem firstBlockOf_small {b : Nat} (h : b < 128) : firstBlockOf b = b - b % 4 := if_pos h
theorem firstBlockOf_big {b : Nat} (h : 128 ≤ b) : firstBlockOf b = b - b % 16 := if_neg (Nat.not_lt.mpr h)
theorem trailerOfSectorIndex_1K (sec : Nat) : trailerOfSectorIndex .classic1K sec = 4 * sec + 3 := rfl
theorem trailerOfSectorIndex_small {sec : Nat} (h : sec < 32) : trailerOfSectorIndex .classic4K sec = 4 * sec + 3 :=
  if_pos h
theorem trailerOfSectorIndex_big {sec : Nat} (h : 32 ≤ sec) :
    trailerOfSectorIndex .classic4K sec = 128 + 16 * (sec - 32) + 15 := if_neg (Nat.not_lt.mpr h)

theorem sectorOfBlock_lt {b : Nat} (h : b < 256) : sectorOfBlock b < 40 := by
  by_cases hb : b < 128
  · rw [sectorOfBlock_small hb]; omega
  · rw [sectorOfBlock_big (by omega)]; omega

theorem firstBlockOf_le (b : Nat) : firstBlockOf b ≤ b := by
  by_cases hb : b < 128
  · rw [firstBlockOf_small hb]; omega
  · rw [firstBlockOf_big (by omega)]; omega

/-- The trailer of a sector that the card has is a BlockIndex (R84). -/
theorem trailerOfSectorIndex_le {k : CardKind} {sec : Nat} (h : sec < Config.sectors k) :
    trailerOfSectorIndex k sec ≤ 255 := by
  cases k with
  | classic1K => rw [trailerOfSectorIndex_1K]; simp only [Config.sectors] at h; omega
  | classic4K =>
    simp only [Config.sectors] at h
    by_cases h32 : sec < 32
    · rw [trailerOfSectorIndex_small h32]; omega
    · rw [trailerOfSectorIndex_big (by omega)]; omega

end Sys2Proof.Machine
end

