-- ==== Sys2Proof/Laws/State.lean ====
section
/-! SUPPORT. What each update of the state leaves in each field: one lemma per field per update, so that no proof unfolds
a record update. -/

namespace Sys2Proof.Machine

open Sys2Proof

/-! `finish` -/

@[simp] theorem finish_status (c : Code) (r : Registers) : (finish c r).status = finishStatus c r.status := rfl
@[simp] theorem finish_kind (c : Code) (r : Registers) : (finish c r).kind = r.kind := rfl
@[simp] theorem finish_results (c : Code) (r : Registers) : (finish c r).results = r.results := rfl

/-! `finishStatus`, `clearErrs` -/

@[simp] theorem finishStatus_rv (c : Code) (st : Status) : (finishStatus c st).rv = true := rfl
@[simp] theorem finishStatus_code (c : Code) (st : Status) : (finishStatus c st).code = c := rfl
@[simp] theorem finishStatus_ok_errs (st : Status) : (finishStatus .ok st).errs = st.errs := by simp [finishStatus]
theorem finishStatus_error_errs (c : Code) (st : Status) (h : c ≠ .ok) : (finishStatus c st).errs = true := by
  simp [finishStatus, h]
@[simp] theorem clearErrs_rv (st : Status) : (clearErrs st).rv = st.rv := rfl
@[simp] theorem clearErrs_errs (st : Status) : (clearErrs st).errs = false := rfl
@[simp] theorem clearErrs_code (st : Status) : (clearErrs st).code = st.code := rfl

/-! `complete` -/

@[simp] theorem complete_status (r : Results) (s : State) :
    (complete r s).regs.status = finishStatus .ok s.regs.status := rfl
@[simp] theorem complete_kind (r : Results) (s : State) : (complete r s).regs.kind = s.regs.kind := rfl
@[simp] theorem complete_results (r : Results) (s : State) : (complete r s).regs.results = r := rfl
@[simp] theorem complete_pins (r : Results) (s : State) : (complete r s).pins = s.pins := rfl
@[simp] theorem complete_upcoming (r : Results) (s : State) : (complete r s).upcoming = s.upcoming := rfl

/-! `completeKind` -/

@[simp] theorem completeKind_status (k : KindReg) (r : Results) (s : State) :
    (completeKind k r s).regs.status = finishStatus .ok s.regs.status := rfl
@[simp] theorem completeKind_kind (k : KindReg) (r : Results) (s : State) : (completeKind k r s).regs.kind = k := rfl
@[simp] theorem completeKind_results (k : KindReg) (r : Results) (s : State) :
    (completeKind k r s).regs.results = r := rfl
@[simp] theorem completeKind_pins (k : KindReg) (r : Results) (s : State) : (completeKind k r s).pins = s.pins := rfl
@[simp] theorem completeKind_upcoming (k : KindReg) (r : Results) (s : State) :
    (completeKind k r s).upcoming = s.upcoming := rfl

/-! `fail` -/

@[simp] theorem fail_status (c : Code) (s : State) : (fail c s).regs.status = finishStatus c s.regs.status := rfl
@[simp] theorem fail_kind (c : Code) (s : State) : (fail c s).regs.kind = s.regs.kind := rfl
@[simp] theorem fail_results (c : Code) (s : State) : (fail c s).regs.results = Results.zero := rfl
@[simp] theorem fail_pins (c : Code) (s : State) : (fail c s).pins = s.pins := rfl
@[simp] theorem fail_upcoming (c : Code) (s : State) : (fail c s).upcoming = s.upcoming := rfl

/-! `hardReset`, `present` -/

@[simp] theorem hardReset_regs (s : State) : (hardReset s).regs = .reset := rfl
@[simp] theorem hardReset_pins (s : State) : (hardReset s).pins = s.pins := rfl
@[simp] theorem hardReset_upcoming (s : State) : (hardReset s).upcoming = s.upcoming := rfl
@[simp] theorem present_regs (w : Word) (s : State) : (present w s).regs = s.regs := rfl
@[simp] theorem present_rst (w : Word) (s : State) : (present w s).pins.rst = false := rfl
@[simp] theorem present_cmd (w : Word) (s : State) : (present w s).pins.cmd = some w := rfl
@[simp] theorem present_din (w : Word) (s : State) : (present w s).pins.din = s.pins.din := rfl
@[simp] theorem present_upcoming (w : Word) (s : State) : (present w s).upcoming = s.upcoming := rfl

/-! `advance`, `withBeats` -/

@[simp] theorem advance_regs (s : State) : (advance s).regs = s.regs := by
  unfold advance; split <;> rfl
@[simp] theorem advance_pins (s : State) : (advance s).pins = s.upcoming.headD Pins.idle := by
  unfold advance; split <;> simp_all
@[simp] theorem advance_upcoming (s : State) : (advance s).upcoming = s.upcoming.tail := by
  unfold advance; split <;> simp_all
@[simp] theorem withBeats_regs (s : State) (ps : List Pins) : (withBeats s ps).regs = s.regs := by
  cases ps <;> rfl
@[simp] theorem withBeats_pins (s : State) (ps : List Pins) : (withBeats s ps).pins = ps.headD Pins.idle := by
  cases ps <;> rfl
@[simp] theorem withBeats_upcoming (s : State) (ps : List Pins) : (withBeats s ps).upcoming = ps.tail := by
  cases ps <;> rfl

/-! `onlyRes`: every result field but RES is that of `Results.zero`. -/

@[simp] theorem onlyRes_res (n : Nat) : (onlyRes n).res = zext16 n := rfl
@[simp] theorem onlyRes_tup (n : Nat) : (onlyRes n).tup = 0 := rfl
@[simp] theorem onlyRes_intv (n : Nat) : (onlyRes n).intv = false := rfl
@[simp] theorem onlyRes_intok (n : Nat) : (onlyRes n).intok = false := rfl
@[simp] theorem onlyRes_acr (n : Nat) : (onlyRes n).acr = Results.zero.acr := rfl

/-- The fields of a state determine it. -/
theorem State.eq_of_fields {s t : State} (hr : s.regs = t.regs) (hp : s.pins = t.pins) (hu : s.upcoming = t.upcoming) :
    s = t := by
  cases s; cases t; simp_all

end Sys2Proof.Machine
end

