-- ==== Sys2Proof/Laws/Ops.lean ====
section
/-! SUPPORT. What each shared operation does, said once (one lemma an operation; the provers cite these instead of
unfolding), and what every meaning leaves of the ports. -/

namespace Sys2Proof.Machine

open Sys2Proof

/-- R162 on success. -/
theorem finishStatus_ok (st : Status) : finishStatus .ok st = { rv := true, errs := st.errs, code := .ok } := by
  simp [finishStatus]

/-- R162 with an error code. -/
theorem finishStatus_error (c : Code) (st : Status) (h : c ≠ .ok) :
    finishStatus c st = { rv := true, errs := true, code := c } := by
  simp [finishStatus, h]

/-- All that a successful command leaves (R162). -/
theorem complete_eq (r : Results) (s : State) :
    complete r s =
      { s with regs := { status := { rv := true, errs := s.regs.status.errs, code := .ok }, kind := s.regs.kind, results := r } } := by
  simp [complete, finish, finishStatus]

/-- All that a successful kind command leaves (R162). -/
theorem completeKind_eq (k : KindReg) (r : Results) (s : State) :
    completeKind k r s =
      { s with regs := { status := { rv := true, errs := s.regs.status.errs, code := .ok }, kind := k, results := r } } := by
  simp [completeKind, finish, finishStatus]

/-- All that a failed command leaves (R163). -/
theorem fail_eq (c : Code) (s : State) (h : c ≠ .ok) :
    fail c s =
      { s with regs := { status := { rv := true, errs := true, code := c }, kind := s.regs.kind, results := .zero } } := by
  simp [fail, finish, finishStatus, h]

/-- A write of KIND (R143): it fails when a kind is set, and sets the kind when none is. -/
theorem writeKind_cases (k : CardKind) (s : State) :
    (∃ k0, s.regs.kind = .set k0 ∧ writeKind k s = fail .kindLocked s)
      ∨ (s.regs.kind = .unset ∧ writeKind k s = completeKind (.set k) (onlyRes k.bit.toNat) s) := by
  unfold writeKind
  split
  next k0 h => exact .inl ⟨k0, h, rfl⟩
  next h => exact .inr ⟨h, rfl⟩

/-- A mapped outcome is a next state exactly when the outcome was one. -/
theorem mapNext_eq_next {f : State → State} {o : StepResult} {t : State} (h : mapNext f o = .next t) :
    ∃ s, o = .next s ∧ t = f s := by
  cases o with
  | next s => exact ⟨s, rfl, by simpa [mapNext] using h.symm⟩
  | fault r => cases r
  | refused r => simp [mapNext] at h

@[simp] theorem mapNext_next (f : State → State) (s : State) : mapNext f (.next s) = .next (f s) := rfl

/-- What the ports ask of a step, in three cases (R180, R181, R187). -/
theorem runPins_cases (s : State) :
    (s.pins.rst = true ∧ runPins s = .next (hardReset s))
      ∨ (s.pins.rst = false ∧ s.pins.cmd = none ∧ runPins s = .next s)
      ∨ (s.pins.rst = false ∧ ∃ w, s.pins.cmd = some w ∧ runPins s = runWord w s) := by
  unfold runPins
  cases hr : s.pins.rst with
  | true => simp
  | false => cases hc : s.pins.cmd <;> simp

/-- A kind write leaves the ports as they are. -/
theorem writeKind_ports (k : CardKind) (s : State) :
    (writeKind k s).pins = s.pins ∧ (writeKind k s).upcoming = s.upcoming := by
  rcases writeKind_cases k s with ⟨_, _, h⟩ | ⟨_, h⟩ <;> simp [h]

/-- No command touches the ports: they are the host's (R37). -/
theorem exec_keeps_ports {i : Instr} {s t : State} (h : exec i s = .next t) :
    t.pins = s.pins ∧ t.upcoming = s.upcoming := by
  cases i with
  | setkind k => cases h; exact writeKind_ports k s
  | kindq a => cases h; exact writeKind_ports _ s
  | trlfst b => simp only [exec, execTrlfst] at h; split at h <;> cases h <;> simp
  | trlsec sec => simp only [exec, execTrlsec] at h; split at h <;> [skip; split at h] <;> cases h <;> simp
  | chkblk b => simp only [exec, execChkblk] at h; split at h <;> cases h <;> simp
  | _ => cases h; exact ⟨rfl, rfl⟩

end Sys2Proof.Machine
end

