-- ==== Sys2Proof/Laws/PerInstr.lean ====
section
/-! SUPPORT. The per-instruction family: the word of each command carries the fixed bits of its own row of the opcode map
(R62). -/

namespace Sys2Proof.Laws.EncodesRow

open Sys2Proof

/-- A row of the opcode map with the command's mnemonic selects the command's word. -/
def Statement (i : Instr) : Prop := ∃ r ∈ opcodeMap, r.mnemonic = i.mnemonic ∧ r.selects (encode i) = true

/-- A command shows its row by naming it. -/
theorem of_row {i : Instr} (r : OpcodeRow) (hr : r ∈ opcodeMap) (hm : r.mnemonic = i.mnemonic)
    (hs : r.selects (encode i) = true) : Statement i := ⟨r, hr, hm, hs⟩

theorem nop : Statement (.nop) := of_row ⟨.nop, 0x0000, 0xFFFF⟩ (by decide) rfl (by decide)
theorem clrkind : Statement (.clrkind) := of_row ⟨.clrkind, 0x0100, 0xFFFF⟩ (by decide) rfl (by decide)
theorem srst : Statement (.srst) := of_row ⟨.srst, 0x0200, 0xFFFF⟩ (by decide) rfl (by decide)
theorem isfirst (b : BlockIndex) : Statement (.isfirst b) := of_row ⟨.isfirst, 0x1000, 0xFF00⟩ (by decide) rfl (by revert b; decide)
theorem istrl (b : BlockIndex) : Statement (.istrl b) := of_row ⟨.istrl, 0x2000, 0xFF00⟩ (by decide) rfl (by revert b; decide)
theorem trlfst (b : BlockIndex) : Statement (.trlfst b) := of_row ⟨.trlfst, 0x3000, 0xFF00⟩ (by decide) rfl (by revert b; decide)
theorem trlsec (sec : SectorIndex) : Statement (.trlsec sec) := of_row ⟨.trlsec, 0x4000, 0xFF00⟩ (by decide) rfl (by revert sec; decide)
theorem secof (b : BlockIndex) : Statement (.secof b) := of_row ⟨.secof, 0x5000, 0xFF00⟩ (by decide) rfl (by revert b; decide)
theorem fstof (b : BlockIndex) : Statement (.fstof b) := of_row ⟨.fstof, 0x6000, 0xFF00⟩ (by decide) rfl (by revert b; decide)
theorem secsz (b : BlockIndex) : Statement (.secsz b) := of_row ⟨.secsz, 0x7000, 0xFF00⟩ (by decide) rfl (by revert b; decide)
theorem chkblk (b : BlockIndex) : Statement (.chkblk b) := of_row ⟨.chkblk, 0x8000, 0xFF00⟩ (by decide) rfl (by revert b; decide)
theorem acdec : Statement (.acdec) := of_row ⟨.acdec, 0x9000, 0xFFFF⟩ (by decide) rfl (by decide)
theorem acdecc : Statement (.acdecc) := of_row ⟨.acdecc, 0xA000, 0xFFFF⟩ (by decide) rfl (by decide)
theorem classify (r : Role) (t : TupleValue) : Statement (.classify r t) := of_row ⟨.classify, 0xB000, 0xFEF8⟩ (by decide) rfl (by cases r <;> revert t <;> decide)
theorem tview : Statement (.tview) := of_row ⟨.tview, 0xC000, 0xFFFF⟩ (by decide) rfl (by decide)
theorem setkind (k : CardKind) : Statement (.setkind k) := of_row ⟨.setkind, 0xD000, 0xFEFF⟩ (by decide) rfl (by cases k <;> decide)
theorem kindq (a : Byte) : Statement (.kindq a) := of_row ⟨.kindq, 0xE000, 0xFF00⟩ (by decide) rfl (by revert a; decide)

end Sys2Proof.Laws.EncodesRow
end

