-- ==== Sys2Proof/Tests/Slice0.lean ====
section
/-! SUPPORT. The model's own tests: every expected value is written from spec/ (the encoding patterns of 30_encoding.md R62,
the corner cases of the command rules, the vectors of 95_test_vectors.md), and a witness for each statement that has
hypotheses. -/

namespace Sys2Proof.Tests

open Sys2Proof Sys2Proof.Machine Sys2Proof.Claims

/-! ### Helpers -/

/-- DIN with four bytes written and the rest 0. -/
def din4 (a b c d : Byte) : Din := #v[a, b, c, d, 0, 0, 0, 0, 0, 0, 0, 0, 0, 0, 0, 0]

/-- The reset state with a card kind, and a host that issues `w` with `d` on DIN. -/
def issuing (k : KindReg) (w : Word) (d : Din) : State :=
  { regs := { Registers.reset with kind := k }, pins := { rst := false, cmd := some w, din := d }, upcoming := [] }

/-- The registers one step leaves. -/
def after (s : State) : Option Registers :=
  match step s with
  | .next t => some t.regs
  | .fault _ => none
  | .refused _ => none

/-- STATUS, KIND and RES one step leaves, as numbers. -/
def summary (k : KindReg) (w : Word) : Option (Nat × Nat × Nat) :=
  (after (issuing k w Pins.idle.din)).map fun r => (r.status.toBits.toNat, r.kind.toBits.toNat, r.results.res.toNat)

/-- STATUS, KIND and RES after the host's sequence of words, from reset. -/
def sequenceSummary (ws : List Word) : Nat × Nat × Nat :=
  let r := (ws.map fun w => Pins.mk false (some w) Pins.idle.din).foldl respond Registers.reset
  (r.status.toBits.toNat, r.kind.toBits.toNat, r.results.res.toNat)

/-! ### Decoding: a word of every row, bit by bit from R62 -/

theorem test_decode_nop : decode 0b0000000000000000 = .ok .nop := by decide
theorem test_decode_clrkind : decode 0b0000000100000000 = .ok .clrkind := by decide
theorem test_decode_srst : decode 0b0000001000000000 = .ok .srst := by decide
theorem test_decode_isfirst : decode 0b0001000010000100 = .ok (.isfirst 132) := by decide
theorem test_decode_istrl : decode 0b0010000011111111 = .ok (.istrl 255) := by decide
theorem test_decode_trlfst : decode 0b0011000011110000 = .ok (.trlfst 240) := by decide
theorem test_decode_trlsec : decode 0b0100000000100111 = .ok (.trlsec 39) := by decide
theorem test_decode_secof : decode 0b0101000011001000 = .ok (.secof 200) := by decide
theorem test_decode_fstof : decode 0b0110000011001000 = .ok (.fstof 200) := by decide
theorem test_decode_secsz : decode 0b0111000010000000 = .ok (.secsz 128) := by decide
theorem test_decode_chkblk : decode 0b1000000001000000 = .ok (.chkblk 64) := by decide
theorem test_decode_acdec : decode 0b1001000000000000 = .ok .acdec := by decide
theorem test_decode_acdecc : decode 0b1010000000000000 = .ok .acdecc := by decide
theorem test_decode_class_data : decode 0b1011000000000110 = .ok (.classify .data 6) := by decide
theorem test_decode_class_trailer : decode 0b1011000100000001 = .ok (.classify .trailer 1) := by decide
theorem test_decode_tview : decode 0b1100000000000000 = .ok .tview := by decide
theorem test_decode_setkind_1k : decode 0b1101000000000000 = .ok (.setkind .classic1K) := by decide
theorem test_decode_setkind_4k : decode 0b1101000100000000 = .ok (.setkind .classic4K) := by decide
theorem test_decode_kindq : decode 0b1110000000000010 = .ok (.kindq 2) := by decide

/-- The ILLEGAL words of 95_test_vectors.md L2-E, by their case of R64. -/
theorem test_illegal_words :
    decode 0xFFFF = .error .reservedOp ∧ decode 0x0300 = .error .controlFields ∧ decode 0x0001 = .error .controlFields
      ∧ decode 0xE100 = .error .immediateFn ∧ decode 0x8F00 = .error .immediateFn ∧ decode 0xA0FF = .error .decoderFields
      ∧ decode 0x9100 = .error .decoderFields ∧ decode 0xB008 = .error .classFields ∧ decode 0xB200 = .error .classFields
      ∧ decode 0xD001 = .error .setkindFields ∧ decode 0xDF00 = .error .setkindFields := by decide

theorem test_table_word : decodeTableWord 16 0xB107 = some (.classify .trailer 7) ∧ decodeTableWord 16 0xF000 = none := by
  decide

/-! ### Well-formedness: an ill-formed term for each check -/

theorem test_wf_accepts : (SourceCmd.mk .classify [1, 7] none).wellFormed = true := by decide
theorem test_wf_byte_range : (SourceCmd.mk .isfirst [256] none).wellFormed = false := by decide
theorem test_wf_tuple_range : (SourceCmd.mk .classify [0, 8] none).wellFormed = false := by decide
theorem test_wf_role_range : (SourceCmd.mk .classify [2, 0] none).wellFormed = false := by decide
theorem test_wf_kind_range : (SourceCmd.mk .setkind [2] none).wellFormed = false := by decide
theorem test_wf_operand_missing : (SourceCmd.mk .kindq [] none).wellFormed = false := by decide
theorem test_wf_operand_extra : (SourceCmd.mk .nop [0] none).wellFormed = false := by decide
theorem test_wf_din_missing : (SourceCmd.mk .tview [] none).wellFormed = false := by decide
theorem test_wf_din_not_taken : (SourceCmd.mk .secof [0] (some [0])).wellFormed = false := by decide
theorem test_wf_din_empty : (SourceCmd.mk .acdec [] (some [])).wellFormed = false := by decide
theorem test_wf_din_too_long : (SourceCmd.mk .tview [] (some (List.replicate 17 0))).wellFormed = false := by decide
theorem test_wf_din_byte_range : (SourceCmd.mk .acdec [] (some [256])).wellFormed = false := by decide

/-! ### Assembler lines of R66 -/

theorem test_asm_class : (assembleLine "CLASS trl, 001b".toList).map (·.cmd) = some (some 0xB101) := by decide
theorem test_asm_hex : (assembleLine "kindq 0x42".toList).map (·.cmd) = some (some 0xE042) := by decide
theorem test_asm_range : assembleLine "isfirst 256".toList = none := by decide
theorem test_asm_din : assembleLine "acdecc din FF 078069".toList
    = some { rst := false, cmd := some 0xA000, din := din4 0xFF 0x07 0x80 0x69 } := by decide

/-! ### One step of each command: corner cases of its rule and vectors of 95_test_vectors.md -/

theorem test_nop_keeps_errs : sequenceSummary [0x4003, 0x0000] = (0xC0, 0b00, 0) := by decide
theorem test_clrkind : sequenceSummary [0xD100, 0x0100] = (0x80, 0b00, 0) := by decide
theorem test_srst_clears_errs : sequenceSummary [0x4003, 0x0200] = (0x80, 0b00, 0) := by decide
theorem test_isfirst_128 : summary .unset 0x1080 = some (0x80, 0b00, 1) := by decide
theorem test_isfirst_132 : summary .unset 0x1084 = some (0x80, 0b00, 0) := by decide
theorem test_istrl_255 : summary .unset 0x20FF = some (0x80, 0b00, 1) := by decide
theorem test_istrl_131 : summary .unset 0x2083 = some (0x80, 0b00, 0) := by decide
theorem test_trlfst_127 : summary .unset 0x307F = some (0x80, 0b00, 130) := by decide
theorem test_trlfst_241 : summary .unset 0x30F1 = some (0xC2, 0b00, 0) := by decide
theorem test_trlsec_39 : summary (.set .classic4K) 0x4027 = some (0x80, 0b11, 255) := by decide
theorem test_trlsec_200_unset : summary .unset 0x40C8 = some (0xC3, 0b00, 0) := by decide
theorem test_secof_200 : summary .unset 0x50C8 = some (0x80, 0b00, 36) := by decide
theorem test_secof_64 : summary (.set .classic1K) 0x5040 = some (0x80, 0b10, 16) := by decide
theorem test_fstof_200 : summary .unset 0x60C8 = some (0x80, 0b00, 192) := by decide
theorem test_fstof_131 : summary .unset 0x6083 = some (0x80, 0b00, 128) := by decide
theorem test_secsz_127 : summary .unset 0x707F = some (0x80, 0b00, 4) := by decide
theorem test_chkblk_64_on_1k : summary (.set .classic1K) 0x8040 = some (0x80, 0b10, 0) := by decide
theorem test_chkblk_255_on_4k : summary (.set .classic4K) 0x80FF = some (0x80, 0b11, 1) := by decide
theorem test_setkind_locked : sequenceSummary [0xD000, 0xD000] = (0xC4, 0b10, 0) := by decide
theorem test_kindq_2 : summary .unset 0xE002 = some (0x80, 0b11, 1) := by decide
theorem test_kindq_42 : summary .unset 0xE042 = some (0x80, 0b10, 0) := by decide
theorem test_illegal_keeps_kind : summary (.set .classic4K) 0xF000 = some (0xC1, 0b11, 0) := by decide

/-- L1-S4: AC 78 77 88 00. -/
theorem test_acdecc_s4 :
    (after (issuing .unset 0xA000 (din4 0x78 0x77 0x88 0x00))).map (fun r =>
      (r.results.tup, r.results.prof, r.results.perm0, r.results.perm3, r.results.intv, r.results.intok))
      = some (0x724, 0xB444, 0x00B, 0x8B8, true, true) := by decide

/-- L2-D3: one inverted bit flipped leaves the decode and clears INTOK. -/
theorem test_acdecc_flipped_inverse :
    (after (issuing .unset 0xA000 (din4 0xFF 0x06 0x80 0x69))).map (fun r =>
      (r.results.tup, r.results.intok, r.status.toBits)) = some (0x200, false, 0x80) := by decide

/-- L1-S3a: the printed bytes 00 00 FF 69 (C1). -/
theorem test_acdec_s3a :
    (after (issuing .unset 0x9000 (din4 0x00 0x00 0xFF 0x69))).map (fun r =>
      (r.results.tup, r.results.prof, r.results.perm2, r.results.perm3, r.results.intv))
      = some (0x6DB, 0xB333, 0x00A, 0x8B8, false) := by decide

/-- L2-D1: `class trl, 6`. -/
theorem test_class_trl_6 :
    (after (issuing .unset 0xB106 Pins.idle.din)).map (fun r => (r.results.res, r.results.prof, r.results.perm0))
      = some (14, 0x000E, 0x030) := by decide

/-- L2-D1: `class data, 6`. -/
theorem test_class_data_6 :
    (after (issuing .unset 0xB006 Pins.idle.din)).map (fun r => (r.results.res, r.results.prof, r.results.perm0))
      = some (6, 0x0006, 0x0EB) := by decide

/-- L2-T, row 2: the keys, AC bytes and decode of a trailer. -/
theorem test_tview_row2 :
    (after (issuing .unset 0xC000
      #v[0xA0, 0xA1, 0xA2, 0xA3, 0xA4, 0xA5, 0xFF, 0x07, 0x80, 0x69, 0xB0, 0xB1, 0xB2, 0xB3, 0xB4, 0xB5])).map (fun r =>
      (readMap r 0x0A, readMap r 0x0E, readMap r 0x11, r.results.tup, r.results.perm3))
      = some (0xA1A0, 0x6980, 0xB5B4, 0x200, 0x554) := by decide

/-! ### Witnesses: concrete values that meet the hypotheses of each statement together -/

theorem witness_legal_word : decode 0xE0FF = .ok (.kindq 255) := by decide

theorem witness_row_selects : OpcodeRow.mk .setkind 0xD000 0xFEFF ∈ opcodeMap
    ∧ OpcodeRow.selects ⟨.setkind, 0xD000, 0xFEFF⟩ 0xD100 = true := by decide

theorem witness_no_row_selects : ∀ r ∈ opcodeMap, r.selects 0xF000 = false := by decide

theorem witness_rows_differ : OpcodeRow.mk .nop 0x0000 0xFFFF ∈ opcodeMap ∧ OpcodeRow.mk .srst 0x0200 0xFFFF ∈ opcodeMap
    ∧ OpcodeRow.mk .nop 0x0000 0xFFFF ≠ ⟨.srst, 0x0200, 0xFFFF⟩ := by decide

theorem witness_illegal_cases : IllegalCase 0xF000 ∧ IllegalCase 0x0300 ∧ IllegalCase 0x1100 ∧ IllegalCase 0x9001
    ∧ IllegalCase 0xB008 ∧ IllegalCase 0xD200 := by
  refine ⟨?_, ?_, ?_, ?_, ?_, ?_⟩ <;> decide

theorem witness_issues : Issues (issuing .unset 0x1080 Pins.idle.din) 0x1080 := ⟨rfl, rfl⟩

/-- An ILLEGAL word on the port, of the first and of the last case of R64. -/
theorem witness_illegal_issued :
    (Issues (issuing (.set .classic4K) 0xF000 Pins.idle.din) 0xF000 ∧ IllegalCase 0xF000)
      ∧ Issues (issuing .unset 0xD001 Pins.idle.din) 0xD001 ∧ IllegalCase 0xD001 :=
  ⟨⟨⟨rfl, rfl⟩, by decide⟩, ⟨rfl, rfl⟩, by decide⟩

theorem witness_step_runs_decoded :
    Issues (issuing .unset 0x0000 Pins.idle.din) 0x0000 ∧ decode 0x0000 = .ok .nop
      ∧ exec .nop (issuing .unset 0x0000 Pins.idle.din)
          = .next (complete .zero (issuing .unset 0x0000 Pins.idle.din)) := ⟨⟨rfl, rfl⟩, by decide, rfl⟩

theorem witness_reset_with_command :
    ∃ s : State, s.pins.rst = true ∧ s.pins.cmd = some 0xD100 :=
  ⟨{ State.reset with pins := { rst := true, cmd := some 0xD100, din := Pins.idle.din } }, rfl, rfl⟩

theorem witness_idle : State.reset.pins.rst = false ∧ State.reset.pins.cmd = none := ⟨rfl, rfl⟩

/-- A state with results in it that meets the invariant: after `class data, 6`. -/
def afterClass : State :=
  { regs :=
      { status := { rv := true, errs := false, code := .ok }, kind := .set .classic1K
        results := { Results.zero with res := 6, prof := 6, perm0 := 0x0EB } }
    pins := { rst := false, cmd := some 0x0000, din := Pins.idle.din }, upcoming := [] }

theorem witness_invariant : afterClass.Inv ∧ ∃ t, step afterClass = .next t := by
  refine ⟨⟨?_, ?_, ?_, ?_, ?_, ?_⟩, _, rfl⟩
  · exact fun _ => rfl
  · intro h; cases h
  · intro h; exact absurd rfl h
  · intro h; cases h
  · decide
  · decide

theorem witness_two_machines :
    Issues (issuing (.set .classic1K) 0x4003 Pins.idle.din) 0x4003 ∧ Issues { afterClass with
        pins := (issuing .unset 0x4003 Pins.idle.din).pins } 0x4003
      ∧ afterClass.regs.kind = (issuing (.set .classic1K) 0x4003 Pins.idle.din).regs.kind
      ∧ (∃ t, step (issuing (.set .classic1K) 0x4003 Pins.idle.din) = .next t)
      ∧ ∃ t, step { afterClass with pins := (issuing .unset 0x4003 Pins.idle.din).pins } = .next t :=
  ⟨⟨rfl, rfl⟩, ⟨rfl, rfl⟩, rfl, ⟨_, rfl⟩, ⟨_, rfl⟩⟩

theorem witness_two_runs :
    (∃ t, runSteps 2 afterClass = .next t)
      ∧ ∃ t, runSteps 2 { afterClass with
          regs := { afterClass.regs with status := { rv := true, errs := true, code := .illegal } } } = .next t :=
  ⟨⟨_, rfl⟩, ⟨_, rfl⟩⟩

theorem witness_kind_set : afterClass.regs.kind = .set .classic1K := rfl

theorem witness_setkind_kindq_complete :
    (∃ t, exec (.setkind .classic4K) State.reset = .next t ∧ t.regs.status.code = .ok)
      ∧ ∃ t, exec (.kindq 2) State.reset = .next t ∧ t.regs.status.code = .ok := ⟨⟨_, rfl, rfl⟩, ⟨_, rfl, rfl⟩⟩

/-- A set kind changes in a step: by CLRKIND, by SRST and by RST. -/
theorem witness_set_kind_changes :
    (∃ t, step (issuing (.set .classic4K) 0x0100 Pins.idle.din) = .next t ∧ t.regs.kind ≠ .set .classic4K)
      ∧ (∃ t, step (issuing (.set .classic4K) 0x0200 Pins.idle.din) = .next t ∧ t.regs.kind ≠ .set .classic4K)
      ∧ ∃ t, step { issuing (.set .classic4K) 0x0000 Pins.idle.din with
            pins := { rst := true, cmd := none, din := Pins.idle.din } } = .next t ∧ t.regs.kind ≠ .set .classic4K :=
  ⟨⟨_, rfl, by decide⟩, ⟨_, rfl, by decide⟩, ⟨_, rfl, by decide⟩⟩

/-- An unset kind changes in a step: by SETKIND. -/
theorem witness_unset_kind_changes :
    ∃ t, step (issuing .unset 0xD000 Pins.idle.din) = .next t ∧ t.regs.kind ≠ .unset := ⟨_, rfl, by decide⟩

/-- ERRS goes from 1 to 0 in a step: by SRST. -/
theorem witness_errs_cleared :
    ∃ s t : State, step s = .next t ∧ s.regs.status.errs = true ∧ t.regs.status.errs = false :=
  ⟨{ issuing .unset 0x0200 Pins.idle.din with
      regs := { Registers.reset with status := { rv := true, errs := true, code := .range } } }, _, rfl, rfl, rfl⟩

/-- SRST itself, as a command, clears a set ERRS. -/
theorem witness_srst_clears :
    ∃ s t : State, exec .srst s = .next t ∧ s.regs.status.errs = true ∧ t.regs.status.errs = false :=
  ⟨{ issuing .unset 0x0200 Pins.idle.din with
      regs := { Registers.reset with status := { rv := true, errs := true, code := .range } } }, _, rfl, rfl, rfl⟩

/-- A command fails with each of the four error codes. -/
theorem witness_failures :
    (∃ t, step (issuing .unset 0xF000 Pins.idle.din) = .next t ∧ t.regs.status.code = .illegal)
      ∧ (∃ t, step (issuing .unset 0x30F1 Pins.idle.din) = .next t ∧ t.regs.status.code = .range)
      ∧ (∃ t, step (issuing .unset 0x8000 Pins.idle.din) = .next t ∧ t.regs.status.code = .kindUnset)
      ∧ ∃ t, step (issuing (.set .classic4K) 0xE002 Pins.idle.din) = .next t ∧ t.regs.status.code = .kindLocked :=
  ⟨⟨_, rfl, by decide⟩, ⟨_, rfl, by decide⟩, ⟨_, rfl, by decide⟩, ⟨_, rfl, by decide⟩⟩

theorem witness_codes_of_commands :
    (∃ t, exec (.trlfst 241) State.reset = .next t ∧ t.regs.status.code = .range)
      ∧ (∃ t, exec (.trlsec 16) afterClass = .next t ∧ t.regs.status.code = .range)
      ∧ (∃ t, exec (.chkblk 0) State.reset = .next t ∧ t.regs.status.code = .kindUnset)
      ∧ ∃ t, exec (.setkind .classic1K) afterClass = .next t ∧ t.regs.status.code = .kindLocked :=
  ⟨⟨_, rfl, by decide⟩, ⟨_, rfl, by decide⟩, ⟨_, rfl, by decide⟩, ⟨_, rfl, by decide⟩⟩

/-- Blocks at the boundaries of TRLFST's clauses: 127 | 128, 240 | 241. -/
theorem witness_trlfst_clauses :
    (127 : BlockIndex).toNat < 128 ∧ 128 ≤ (128 : BlockIndex).toNat ∧ (240 : BlockIndex).toNat ≤ 240
      ∧ 241 ≤ (241 : BlockIndex).toNat := by decide

/-- Sectors and kinds at the boundaries of TRLSEC's clauses: unset; 15 | 16 on 1K; 31 | 32, 39 | 40 on 4K. -/
theorem witness_trlsec_clauses :
    State.reset.regs.kind = .unset
      ∧ (issuing (.set .classic1K) 0 Pins.idle.din).regs.kind = .set .classic1K
      ∧ (issuing (.set .classic4K) 0 Pins.idle.din).regs.kind = .set .classic4K
      ∧ (15 : SectorIndex).toNat < 16 ∧ 16 ≤ (16 : SectorIndex).toNat ∧ (31 : SectorIndex).toNat < 32
      ∧ 32 ≤ (32 : SectorIndex).toNat ∧ (39 : SectorIndex).toNat < 40 ∧ 40 ≤ (40 : SectorIndex).toNat := by decide

/-- Blocks at the boundaries of SECOF's, SECSZ's and CHKBLK's clauses and of the small sectors: 127 | 128, 63 | 64. -/
theorem witness_block_clauses :
    (127 : BlockIndex).toNat < 128 ∧ 128 ≤ (128 : BlockIndex).toNat ∧ (63 : BlockIndex).toNat < 64
      ∧ 64 ≤ (64 : BlockIndex).toNat := by decide

/-- The premises of the geometry laws: a block below 64 on 1K, and sectors of each kind. -/
theorem witness_geometry_laws :
    afterClass.regs.kind = .set .classic1K ∧ (63 : BlockIndex).toNat < 64 ∧ (15 : SectorIndex).toNat < 16
      ∧ (issuing (.set .classic4K) 0 Pins.idle.din).regs.kind = .set .classic4K ∧ (39 : SectorIndex).toNat < 40
      ∧ commandResult (.trlsec 15) afterClass = some 63 := by decide

/-- DIN values that agree on AC[1][7:4] and AC[2] and differ elsewhere, for each of the three decodes. -/
theorem witness_same_direct_bits :
    (din4 0x01 0x7F 0x88 0x55)[1].extractLsb' 4 4 = (issuing .unset 0x9000 (din4 0x78 0x77 0x88 0x00)).pins.din[1].extractLsb' 4 4
      ∧ (din4 0x01 0x7F 0x88 0x55)[2] = (issuing .unset 0x9000 (din4 0x78 0x77 0x88 0x00)).pins.din[2]
      ∧ (din4 1 2 3 4)[7].extractLsb' 4 4 = State.reset.pins.din[7].extractLsb' 4 4
      ∧ (din4 1 2 3 4)[8] = State.reset.pins.din[8] := by decide

theorem witness_acdecc_next : ∃ t, exec .acdecc State.reset = .next t := ⟨_, rfl⟩

/-- The single-bit AC values of block 3 (L2-D2). -/
theorem witness_single_bits :
    ((issuing .unset 0x9000 (din4 0 0x80 0 0)).pins.din[1] = 1#8 <<< (3 + 4)
        ∧ (issuing .unset 0x9000 (din4 0 0x80 0 0)).pins.din[2] = 0)
      ∧ ((issuing .unset 0x9000 (din4 0 0 0x08 0)).pins.din[1] = 0
        ∧ (issuing .unset 0x9000 (din4 0 0 0x08 0)).pins.din[2] = 1#8 <<< 3)
      ∧ ((issuing .unset 0x9000 (din4 0 0 0x80 0)).pins.din[1] = 0
        ∧ (issuing .unset 0x9000 (din4 0 0 0x80 0)).pins.din[2] = 1#8 <<< (3 + 4)) := by decide

theorem witness_class_and_decodes_next :
    (∃ u, exec (.classify .trailer 7) State.reset = .next u) ∧ (∃ u, exec (.classify .data 0) State.reset = .next u)
      ∧ (∃ u, exec .acdec State.reset = .next u) ∧ (∃ u, exec .acdecc State.reset = .next u)
      ∧ ∃ u, exec .tview State.reset = .next u := ⟨⟨_, rfl⟩, ⟨_, rfl⟩, ⟨_, rfl⟩, ⟨_, rfl⟩, ⟨_, rfl⟩⟩

/-- A trailer on DIN of one state and its AC field on DIN of another with other registers. -/
theorem witness_trailer_and_ac :
    ∀ k, k < 4 → (issuing (.set .classic4K) 0x9000 (din4 0xFF 0x07 0x80 0x69)).pins.din[k]?
      = (issuing .unset 0xC000 #v[1, 2, 3, 4, 5, 6, 0xFF, 0x07, 0x80, 0x69, 7, 8, 9, 10, 11, 12]).pins.din[6 + k]? := by
  decide

theorem witness_kindq_clauses :
    State.reset.regs.kind = .unset ∧ (2 : Byte).toNat = 2 ∧ (3 : Byte).toNat ≠ 2 ∧ afterClass.regs.kind = .set .classic1K := by
  decide

theorem witness_card_change :
    afterClass.regs.kind = .set .classic1K
      ∧ (∃ a : Byte, Instr.kindq 2 = .kindq a ∧ (CardKind.classic4K = .classic4K ↔ a.toNat = 2)) :=
  ⟨rfl, 2, rfl, by decide⟩

/-- Two DIN values that agree on DIN[0..3] and differ beyond. -/
theorem witness_unused_din :
    ∀ k, k < 4 → (din4 1 2 3 4)[k]? = (#v[1, 2, 3, 4, 5, 6, 7, 8, 9, 10, 11, 12, 13, 14, 15, 16] : Din)[k]? := by decide

theorem witness_repeat :
    ∃ t u, exec (.trlfst 128) State.reset = .next t ∧ exec (.trlfst 128) t = .next u := ⟨_, _, rfl, rfl⟩

/-- A host sequence with no RST and no SRST, an idle step and a failing command in it. -/
theorem witness_sequence :
    ∀ p ∈ [Pins.mk false (some 0x30F1) Pins.idle.din, Pins.idle, Pins.mk false (some 0x0000) Pins.idle.din],
      p.rst = false ∧ p.cmd ≠ some 0x0200 := by decide

theorem witness_sixteen_bytes : (List.replicate 16 255).length = 16 ∧ ∀ n ∈ List.replicate 16 255, n < 256 := by decide

end Sys2Proof.Tests
end

/-! ### Facts about the decoder -/

namespace Sys2Proof.StateFamily

open Sys2Proof Sys2Proof.Machine Sys2Proof.Claims

/-- FN[3:1], the bits of FN above the flag r or k (R61). -/
theorem fnHighField_toNat (w : Word) : (w.extractLsb' 9 3).toNat = w.toNat / 256 % 16 / 2 := by
  simp only [BitVec.extractLsb'_toNat, Nat.shiftRight_eq_div_pow]
  omega

/-- IMM[7:3], the bits of IMM above the tuple t (R61). -/
theorem immHighField_toNat (w : Word) : (w.extractLsb' 3 5).toNat = w.toNat % 256 / 8 := by
  simp only [BitVec.extractLsb'_toNat, Nat.shiftRight_eq_div_pow]
  omega

/-- A legal word of OP = 0 has IMM = 0, and FN tells the command (R62). -/
theorem decodeControl_eq_ok {w : Word} {i : Instr} (h : decodeControl w = .ok i) :
    w.toNat % 256 = 0
      ∧ ((w.toNat / 256 % 16 = 0 ∧ i = .nop) ∨ (w.toNat / 256 % 16 = 1 ∧ i = .clrkind)
          ∨ (w.toNat / 256 % 16 = 2 ∧ i = .srst)) := by
  simp only [decodeControl, ne_eq, ← BitVec.toNat_inj, immField_toNat, fnField_toNat] at h
  split at h
  · cases h
  next himm =>
    refine ⟨not_not.mp himm, ?_⟩
    split at h
    next hfn => cases h; exact .inl ⟨hfn, rfl⟩
    split at h
    next hfn => cases h; exact .inr (.inl ⟨hfn, rfl⟩)
    split at h
    next hfn => cases h; exact .inr (.inr ⟨hfn, rfl⟩)
    · cases h

/-- A legal word of a command with an 8-bit operand has FN = 0 (R62). -/
theorem decodeImmediate_eq_ok {w : Word} {make : Byte → Instr} {i : Instr} (h : decodeImmediate w make = .ok i) :
    w.toNat / 256 % 16 = 0 ∧ i = make (immField w) := by
  simp only [decodeImmediate, ← BitVec.toNat_inj, fnField_toNat] at h
  split at h
  next hfn => cases h; exact ⟨hfn, rfl⟩
  · cases h

/-- A legal word of a command with no operand in it has FN = 0 and IMM = 0 (R62). -/
theorem decodeBare_eq_ok {w : Word} {i j : Instr} (h : decodeBare w j = .ok i) :
    w.toNat / 256 % 16 = 0 ∧ w.toNat % 256 = 0 ∧ i = j := by
  simp only [decodeBare, ← BitVec.toNat_inj, fnField_toNat, immField_toNat] at h
  split at h
  next hf => cases h; exact ⟨hf.1, hf.2, rfl⟩
  · cases h

/-- A legal CLASS word has FN[3:1] = 0 and IMM[7:3] = 0 (R62). -/
theorem decodeClass_eq_ok {w : Word} {i : Instr} (h : decodeClass w = .ok i) :
    w.toNat / 256 % 16 / 2 = 0 ∧ w.toNat % 256 / 8 = 0 ∧ i = .classify (Role.ofBit (flagField w)) (tupleField w) := by
  simp only [decodeClass, ← BitVec.toNat_inj, fnHighField_toNat, immHighField_toNat] at h
  split at h
  next hf => cases h; exact ⟨hf.1, hf.2, rfl⟩
  · cases h

/-- A legal SETKIND word has FN[3:1] = 0 and IMM = 0 (R62). -/
theorem decodeSetkind_eq_ok {w : Word} {i : Instr} (h : decodeSetkind w = .ok i) :
    w.toNat / 256 % 16 / 2 = 0 ∧ w.toNat % 256 = 0 ∧ i = .setkind (CardKind.ofBit (flagField w)) := by
  simp only [decodeSetkind, ← BitVec.toNat_inj, fnHighField_toNat, immField_toNat] at h
  split at h
  next hf => cases h; exact ⟨hf.1, hf.2, rfl⟩
  · cases h

/-- A legal word by its OP (R62): which form it has, and for which commands. -/
theorem decode_eq_ok {w : Word} {i : Instr} (h : decode w = .ok i) :
    (w.toNat / 4096 = 0 ∧ decodeControl w = .ok i)
      ∨ (((1 ≤ w.toNat / 4096 ∧ w.toNat / 4096 ≤ 8) ∨ w.toNat / 4096 = 14)
          ∧ ∃ make : Byte → Instr, (∀ b, (make b).operands = [b.toNat]) ∧ decodeImmediate w make = .ok i)
      ∨ ((w.toNat / 4096 = 9 ∨ w.toNat / 4096 = 10 ∨ w.toNat / 4096 = 12)
          ∧ ∃ j : Instr, j.mnemonic.takesDin = true ∧ decodeBare w j = .ok i)
      ∨ (w.toNat / 4096 = 11 ∧ decodeClass w = .ok i)
      ∨ (w.toNat / 4096 = 13 ∧ decodeSetkind w = .ok i) := by
  simp only [decode, opField_toNat] at h
  split at h
  case h_1 op => exact .inl ⟨op, h⟩
  case h_10 op => exact .inr (.inr (.inl ⟨by omega, _, rfl, h⟩))
  case h_11 op => exact .inr (.inr (.inl ⟨by omega, _, rfl, h⟩))
  case h_12 op => exact .inr (.inr (.inr (.inl ⟨op, h⟩)))
  case h_13 op => exact .inr (.inr (.inl ⟨by omega, _, rfl, h⟩))
  case h_14 op => exact .inr (.inr (.inr (.inr ⟨op, h⟩)))
  case h_16 => cases h
  all_goals exact .inr (.inl ⟨by omega, _, fun _ => rfl, h⟩)

/-- The decoder rejects every word of the cases (a) to (f) of R64. -/
theorem decode_error_of_illegalCase {w : Word} (hw : IllegalCase w) : ∃ e, decode w = .error e := by
  cases h : decode w with
  | error e => exact ⟨e, rfl⟩
  | ok i =>
    exfalso
    simp only [IllegalCase, IllegalFields] at hw
    rcases decode_eq_ok h with ⟨op, hd⟩ | ⟨op, make, -, hd⟩ | ⟨op, j, -, hd⟩ | ⟨op, hd⟩ | ⟨op, hd⟩
    · have := decodeControl_eq_ok hd; omega
    · have := decodeImmediate_eq_ok hd; omega
    · have := decodeBare_eq_ok hd; omega
    · have := decodeClass_eq_ok hd; omega
    · have := decodeSetkind_eq_ok hd; omega

/-- The one word of SRST (R62). -/
theorem word_eq_of_decode_srst {w : Word} (h : decode w = .ok .srst) : w = 0x0200 := by
  rcases decode_eq_ok h with ⟨op, hd⟩ | ⟨-, make, operand, hd⟩ | ⟨-, j, din, hd⟩ | ⟨-, hd⟩ | ⟨-, hd⟩
  · have := decodeControl_eq_ok hd
    apply BitVec.eq_of_toNat_eq
    simp at this ⊢
    omega
  · obtain ⟨-, hi⟩ := decodeImmediate_eq_ok hd
    exact nomatch (congrArg Instr.operands hi).trans (operand (immField w))
  · obtain ⟨-, -, rfl⟩ := decodeBare_eq_ok hd
    cases din
  · obtain ⟨-, -, hi⟩ := decodeClass_eq_ok hd
    cases hi
  · obtain ⟨-, -, hi⟩ := decodeSetkind_eq_ok hd
    cases hi

end Sys2Proof.StateFamily

/-! ### The result fields a command may leave -/

namespace Sys2Proof.StateFamily

open Sys2Proof Sys2Proof.Machine Sys2Proof.Claims

/-- The part of `RegInv` that speaks of the result fields alone: what every command must build. -/
structure ResultsInv (r : Results) : Prop where
  intok_only_checked : r.intv = false → r.intok = false
  intok_of_acr : r.intv = true → r.intok = integrity r.acr
  tup_of_acr : r.tup = packTuples r.acr
  res_fits : r.res.toNat ≤ Config.maxBlockIndex

/-- An AC field of zeros decodes to TUP = 0. -/
theorem packTuples_zero : packTuples Results.zero.acr = 0 := by decide

/-- RES alone is written, with no more than a BlockIndex. -/
theorem resultsInv_onlyRes {n : Nat} (hn : n ≤ 255) : ResultsInv (onlyRes n) where
  intok_only_checked _ := rfl
  intok_of_acr h := nomatch h
  tup_of_acr := packTuples_zero.symm
  res_fits := (zext16_toNat n (by omega)).trans_le hn

theorem resultsInv_zero : ResultsInv .zero := resultsInv_onlyRes (Nat.zero_le 255)

/-- CLASS: a profile code is below 16, and no AC field is shown. -/
theorem resultsInv_classify (r : Role) (t : TupleValue) (prof : BitVec 16) (perm : Matrix) :
    ResultsInv { Results.zero with res := zext16 (profileCode r t).toNat, prof := prof, perm0 := perm } where
  intok_only_checked _ := rfl
  intok_of_acr h := nomatch h
  tup_of_acr := packTuples_zero.symm
  res_fits := (resultsInv_onlyRes (by omega)).res_fits

/-- A lenient decode into results that hold neither RES nor an integrity bit. -/
theorem resultsInv_decode (ac : AcBytes) {r : Results} (hres : r.res = 0) (hv : r.intv = false) (hok : r.intok = false) :
    ResultsInv (decodeIntoResults ac r) where
  intok_only_checked _ := hok
  intok_of_acr h := by simp [hv] at h
  tup_of_acr := rfl
  res_fits := by simp [hres]

/-- The checked decode: INTOK is the integrity of the bytes that ACR then shows (R113). -/
theorem resultsInv_checked (ac : AcBytes) :
    ResultsInv { decodeIntoResults ac .zero with intv := true, intok := integrity ac } where
  intok_only_checked h := nomatch h
  intok_of_acr _ := rfl
  tup_of_acr := rfl
  res_fits := Nat.zero_le _

/-! ### The effect of a step

What a step does to the registers is picked by the pins and by KIND before it (R45), and it is one of six effects. The
lemmas `exec_effect` and `step_effect` say so once; every statement about all steps is read off the six cases. -/

/-- What a step can do to the registers. -/
inductive Effect where
  /-- Hardware reset (R180). -/
  | reset
  /-- Nothing: no command is presented. -/
  | idle
  /-- A command completes with OK and leaves these result fields. -/
  | succeed (results : Results)
  /-- A command fails (R163). -/
  | fail (code : Code)
  /-- A command completes with OK, writes KIND and leaves these result fields. -/
  | writeKind (kind : KindReg) (results : Results)
  /-- SRST (R142). -/
  | softReset

/-- The registers after an effect, by the model's own operations. -/
def Effect.apply (r : Registers) : Effect → Registers
  | .reset => .reset
  | .idle => r
  | .succeed results => finish .ok { r with results := results }
  | .fail code => finish code { r with results := .zero }
  | .writeKind kind results => finish .ok { r with kind := kind, results := results }
  | .softReset => finish .ok { status := clearErrs r.status, kind := .unset, results := .zero }

/-- The effects each command can have. -/
inductive CommandEffect : Instr → Effect → Prop
  | succeed {i : Instr} {results : Results} (hr : ResultsInv results) : CommandEffect i (.succeed results)
  | fail {i : Instr} {code : Code} (hc : code ≠ .ok) : CommandEffect i (.fail code)
  | clrkind : CommandEffect .clrkind (.writeKind .unset .zero)
  | setkind (k : CardKind) : CommandEffect (.setkind k) (.writeKind (.set k) (onlyRes k.bit.toNat))
  | kindq (a : Byte) :
      CommandEffect (.kindq a) (.writeKind (.set (kindOfAtqa1 a)) (onlyRes (kindOfAtqa1 a).bit.toNat))
  | srst : CommandEffect .srst .softReset

/-- The effects each value of the pins can have (R180, R181, R63, R64). -/
inductive PinsEffect (p : Pins) : Effect → Prop
  | reset (hrst : p.rst = true) : PinsEffect p .reset
  | idle (hrst : p.rst = false) (hcmd : p.cmd = none) : PinsEffect p .idle
  | command {w : Word} {i : Instr} {e : Effect} (hrst : p.rst = false) (hcmd : p.cmd = some w)
      (hdec : decode w = .ok i) (he : CommandEffect i e) : PinsEffect p e
  | illegal {w : Word} {x : IllegalWord} (hrst : p.rst = false) (hcmd : p.cmd = some w)
      (hdec : decode w = .error x) : PinsEffect p (.fail .illegal)

/-- A kind write fails when a kind is set and writes KIND when none is, whatever else the state holds (R143). -/
theorem writeKind_effect (k : CardKind) (kind : KindReg) :
    (∀ s : State, s.regs.kind = kind → writeKind k s = fail .kindLocked s)
      ∨ ∀ s : State, s.regs.kind = kind → writeKind k s = completeKind (.set k) (onlyRes k.bit.toNat) s := by
  cases kind with
  | set k0 => exact .inl fun s hk => by simp [writeKind, hk]
  | unset => exact .inr fun s hk => by simp [writeKind, hk]

/-- The command, DIN and KIND pick one effect of the command, the same in every state that agrees on DIN and KIND; the
ports stay (R45, R37). -/
theorem exec_effect (i : Instr) (din : Din) (kind : KindReg) :
    ∃ e, CommandEffect i e ∧ ∀ s : State, s.pins.din = din → s.regs.kind = kind →
      exec i s = .next { s with regs := e.apply s.regs } := by
  cases i with
  | nop => exact ⟨.succeed .zero, .succeed resultsInv_zero, fun _ _ _ => rfl⟩
  | clrkind => exact ⟨.writeKind .unset .zero, .clrkind, fun _ _ _ => rfl⟩
  | srst => exact ⟨.softReset, .srst, fun _ _ _ => rfl⟩
  | isfirst b =>
    have hn := boolNat_le_one (isFirstBlock b.toNat)
    exact ⟨.succeed _, .succeed (resultsInv_onlyRes (by omega)), fun _ _ _ => rfl⟩
  | istrl b =>
    have hn := boolNat_le_one (isTrailerBlock b.toNat)
    exact ⟨.succeed _, .succeed (resultsInv_onlyRes (by omega)), fun _ _ _ => rfl⟩
  | trlfst b =>
    by_cases hn : trailerOfSectorFirst b.toNat > Config.maxBlockIndex
    · exact ⟨.fail .range, .fail (by decide), fun _ _ _ => if_pos hn⟩
    · exact ⟨.succeed _, .succeed (resultsInv_onlyRes (Nat.not_lt.mp hn)), fun _ _ _ => if_neg hn⟩
  | trlsec sec =>
    cases kind with
    | unset => exact ⟨.fail .kindUnset, .fail (by decide), fun s _ hk => by simp only [exec, execTrlsec, hk]; rfl⟩
    | set k =>
      by_cases hn : sec.toNat ≥ Config.sectors k
      · exact ⟨.fail .range, .fail (by decide), fun s _ hk => by simp only [exec, execTrlsec, hk, if_pos hn]; rfl⟩
      · have hres := resultsInv_onlyRes (trailerOfSectorIndex_le (Nat.not_le.mp hn))
        exact ⟨.succeed _, .succeed hres, fun s _ hk => by simp only [exec, execTrlsec, hk, if_neg hn]; rfl⟩
  | secof b =>
    have hn := sectorOfBlock_lt b.isLt
    exact ⟨.succeed _, .succeed (resultsInv_onlyRes (by omega)), fun _ _ _ => rfl⟩
  | fstof b =>
    have hn := firstBlockOf_le b.toNat
    exact ⟨.succeed _, .succeed (resultsInv_onlyRes (by omega)), fun _ _ _ => rfl⟩
  | secsz b =>
    have hn : sectorSize b.toNat ≤ 16 := by unfold sectorSize; split <;> decide
    exact ⟨.succeed _, .succeed (resultsInv_onlyRes (by omega)), fun _ _ _ => rfl⟩
  | chkblk b =>
    cases kind with
    | unset => exact ⟨.fail .kindUnset, .fail (by decide), fun s _ hk => by simp only [exec, execChkblk, hk]; rfl⟩
    | set k =>
      have hn := boolNat_le_one (decide (b.toNat < Config.blocks k))
      have hres := resultsInv_onlyRes (hn.trans (by decide))
      exact ⟨.succeed _, .succeed hres, fun s _ hk => by simp only [exec, execChkblk, hk]; rfl⟩
  | acdec => exact ⟨.succeed _, .succeed (resultsInv_decode (dinAc din) rfl rfl rfl), by rintro s rfl -; rfl⟩
  | acdecc => exact ⟨.succeed _, .succeed (resultsInv_checked (dinAc din)), by rintro s rfl -; rfl⟩
  | classify r t => exact ⟨.succeed _, .succeed (resultsInv_classify r t _ _), fun _ _ _ => rfl⟩
  | tview =>
    refine ⟨.succeed _, .succeed (resultsInv_decode (trailerAc din)
      (r := { Results.zero with keyA := trailerKeyA din, keyB := trailerKeyB din }) rfl rfl rfl), ?_⟩
    rintro s rfl -
    rfl
  | setkind k =>
    rcases writeKind_effect k kind with h | h
    · exact ⟨.fail .kindLocked, .fail (by decide), fun s _ hk => congrArg _ (h s hk)⟩
    · exact ⟨_, .setkind k, fun s _ hk => congrArg _ (h s hk)⟩
  | kindq a =>
    rcases writeKind_effect (kindOfAtqa1 a) kind with h | h
    · exact ⟨.fail .kindLocked, .fail (by decide), fun s _ hk => congrArg _ (h s hk)⟩
    · exact ⟨_, .kindq a, fun s _ hk => congrArg _ (h s hk)⟩

/-- The state after a step in which the registers become `r`: the host's next pins are on the ports. -/
def nextState (s : State) (r : Registers) : State :=
  { regs := r, pins := s.upcoming.headD Pins.idle, upcoming := s.upcoming.tail }

/-- A step is what the ports ask, and then the host's next pins. -/
theorem step_of_runPins {s t : State} (h : runPins s = .next t) (hu : t.upcoming = s.upcoming) :
    step s = .next (nextState s t.regs) := by
  rw [step, h, mapNext_next]
  exact congrArg _ (State.eq_of_fields (by simp [nextState]) (by simp [nextState, hu]) (by simp [nextState, hu]))

/-- RST wins over a command (R180). -/
theorem step_of_rst {s : State} (hrst : s.pins.rst = true) : step s = .next (nextState s .reset) := by
  have hrun : runPins s = .next (hardReset s) := by simp [runPins, hrst]
  exact step_of_runPins hrun rfl

/-- With neither RST nor a command, MCAD waits (R181). -/
theorem step_of_idle {s : State} (hrst : s.pins.rst = false) (hcmd : s.pins.cmd = none) :
    step s = .next (nextState s s.regs) := by
  have hrun : runPins s = .next s := by simp [runPins, hrst, hcmd]
  exact step_of_runPins hrun rfl

/-- A presented word is run. -/
theorem runPins_of_issues {s : State} {w : Word} (h : Issues s w) : runPins s = runWord w s := by
  obtain ⟨hrst, hcmd⟩ := h
  simp [runPins, hrst, hcmd]

/-- A step that issues a legal word has the registers of the command's own next state (R63). -/
theorem step_of_exec {s t : State} {w : Word} {i : Instr} (hw : Issues s w) (hdec : decode w = .ok i)
    (hexec : exec i s = .next t) : step s = .next (nextState s t.regs) := by
  have hrun : runPins s = .next t := by rw [runPins_of_issues hw, runWord, hdec]; exact hexec
  exact step_of_runPins hrun (exec_keeps_ports hexec).2

/-- A step that issues an ILLEGAL word fails with E_ILLEGAL (R64). -/
theorem step_of_illegal {s : State} {w : Word} {x : IllegalWord} (hw : Issues s w) (hdec : decode w = .error x) :
    step s = .next (nextState s (fail .illegal s).regs) := by
  have hrun : runPins s = .next (fail .illegal s) := by rw [runPins_of_issues hw, runWord, hdec]; rfl
  exact step_of_runPins hrun rfl

/-- The pins and KIND pick one effect of the pins, the same in every state that agrees on them, and the step has this
effect on the registers (R45, R180, R181, R187). -/
theorem step_effect (p : Pins) (kind : KindReg) :
    ∃ e, PinsEffect p e ∧ ∀ s : State, s.pins = p → s.regs.kind = kind →
      step s = .next (nextState s (e.apply s.regs)) := by
  cases hrst : p.rst with
  | true => exact ⟨.reset, .reset hrst, by rintro s rfl -; exact step_of_rst hrst⟩
  | false =>
    cases hcmd : p.cmd with
    | none => exact ⟨.idle, .idle hrst hcmd, by rintro s rfl -; exact step_of_idle hrst hcmd⟩
    | some w =>
      cases hdec : decode w with
      | error x =>
        exact ⟨.fail .illegal, .illegal hrst hcmd hdec, by rintro s rfl -; exact step_of_illegal ⟨hrst, hcmd⟩ hdec⟩
      | ok i =>
        obtain ⟨e, he, hexec⟩ := exec_effect i p.din kind
        refine ⟨e, .command hrst hcmd hdec he, ?_⟩
        rintro s rfl hk
        exact step_of_exec ⟨hrst, hcmd⟩ hdec (hexec s rfl hk)

/-- One state's step: it answers next with one of the effects of its pins. -/
theorem effect_of_step {s t : State} (h : step s = .next t) :
    ∃ e, PinsEffect s.pins e ∧ t = nextState s (e.apply s.regs) := by
  obtain ⟨e, he, hstep⟩ := step_effect s.pins s.regs.kind
  rw [hstep s rfl rfl] at h
  cases h
  exact ⟨e, he, rfl⟩

end Sys2Proof.StateFamily

/-! ### The register invariant -/

namespace Sys2Proof.StateFamily

open Sys2Proof Sys2Proof.Machine Sys2Proof.Claims

theorem regInv_reset : RegInv .reset where
  intok_only_checked := resultsInv_zero.intok_only_checked
  intok_of_acr := resultsInv_zero.intok_of_acr
  error_clears h := absurd rfl h
  before_first _ := rfl
  tup_of_acr := resultsInv_zero.tup_of_acr
  res_fits := resultsInv_zero.res_fits

/-- A command that completes with OK: only its result fields matter. -/
theorem regInv_finish_ok {r : Registers} (h : ResultsInv r.results) : RegInv (finish .ok r) where
  intok_only_checked := h.intok_only_checked
  intok_of_acr := h.intok_of_acr
  error_clears hc := absurd rfl hc
  before_first hrv := nomatch hrv
  tup_of_acr := h.tup_of_acr
  res_fits := h.res_fits

/-- A command that fails (R163). -/
theorem regInv_finish_error {c : Code} (hc : c ≠ .ok) (r : Registers) :
    RegInv (finish c { r with results := .zero }) where
  intok_only_checked := resultsInv_zero.intok_only_checked
  intok_of_acr := resultsInv_zero.intok_of_acr
  error_clears _ := ⟨rfl, finishStatus_error_errs c r.status hc, rfl⟩
  before_first hrv := nomatch hrv
  tup_of_acr := resultsInv_zero.tup_of_acr
  res_fits := resultsInv_zero.res_fits

/-- A command's effect establishes the invariant, whatever the registers held. -/
theorem regInv_of_commandEffect {i : Instr} {e : Effect} (he : CommandEffect i e) (r : Registers) :
    RegInv (e.apply r) := by
  cases he with
  | succeed hr => exact regInv_finish_ok hr
  | fail hc => exact regInv_finish_error hc r
  | clrkind => exact regInv_finish_ok resultsInv_zero
  | setkind k => exact regInv_finish_ok (resultsInv_onlyRes (by omega))
  | kindq a => exact regInv_finish_ok (resultsInv_onlyRes (by omega))
  | srst => exact regInv_finish_ok resultsInv_zero

/-- Only an idle step needs the invariant before it. -/
theorem regInv_of_pinsEffect {p : Pins} {e : Effect} (he : PinsEffect p e) {r : Registers} (hr : RegInv r) :
    RegInv (e.apply r) := by
  cases he with
  | reset => exact regInv_reset
  | idle => exact hr
  | command _ _ _ hcmd => exact regInv_of_commandEffect hcmd r
  | illegal => exact regInv_finish_error (by decide) r

/-- Settles O11: each effect a step can have keeps the invariant. -/
theorem registerInvariantKeptByStep : Obligations.RegisterInvariantKeptByStep := by
  intro s t hs hstep
  obtain ⟨e, he, rfl⟩ := effect_of_step hstep
  exact regInv_of_pinsEffect he hs

/-- Settles O12. -/
theorem resetMeetsRegisterInvariant : Obligations.ResetMeetsRegisterInvariant := regInv_reset

/-! ### STATUS and the effects -/

/-- The two states differ at most in STATUS. -/
structure AgreeButStatus (s s' : State) : Prop where
  results : s'.regs.results = s.regs.results
  kind : s'.regs.kind = s.regs.kind
  pins : s'.pins = s.pins
  upcoming : s'.upcoming = s.upcoming

/-- No effect carries STATUS into the result fields or KIND. -/
theorem Effect.apply_agrees (e : Effect) {r r' : Registers} (hres : r'.results = r.results) (hkind : r'.kind = r.kind) :
    (e.apply r').results = (e.apply r).results ∧ (e.apply r').kind = (e.apply r).kind := by
  cases e with
  | reset => exact ⟨rfl, rfl⟩
  | idle => exact ⟨hres, hkind⟩
  | succeed results => exact ⟨rfl, hkind⟩
  | fail code => exact ⟨rfl, hkind⟩
  | writeKind kind results => exact ⟨rfl, rfl⟩
  | softReset => exact ⟨rfl, rfl⟩

/-- One step of two states that differ in STATUS alone has the same effect on both. -/
theorem AgreeButStatus.after_step {s s' t t' : State} (hs : AgreeButStatus s s') (h : step s = .next t)
    (h' : step s' = .next t') : AgreeButStatus t t' := by
  obtain ⟨e, -, hstep⟩ := step_effect s.pins s.regs.kind
  rw [hstep s rfl rfl] at h
  rw [hstep s' hs.pins hs.kind] at h'
  cases h
  cases h'
  obtain ⟨hres, hkind⟩ := e.apply_agrees hs.results hs.kind
  exact ⟨hres, hkind, by simp [nextState, hs.upcoming], by simp [nextState, hs.upcoming]⟩

/-- A run of n + 1 steps is a step and a run of n steps from its next state. -/
theorem runSteps_succ_of_step {s t : State} (h : step s = .next t) (n : Nat) : runSteps (n + 1) s = runSteps n t := by
  rw [runSteps, h]

theorem runSteps_succ_eq_next {n : Nat} {s u : State} (h : runSteps (n + 1) s = .next u) :
    ∃ t, step s = .next t ∧ runSteps n t = .next u := by
  obtain ⟨e, -, hstep⟩ := step_effect s.pins s.regs.kind
  have hs := hstep s rfl rfl
  exact ⟨_, hs, (runSteps_succ_of_step hs n).symm.trans h⟩

theorem AgreeButStatus.after_run {n : Nat} {s s' t t' : State} (hs : AgreeButStatus s s')
    (h : runSteps n s = .next t) (h' : runSteps n s' = .next t') : AgreeButStatus t t' := by
  induction n generalizing s s' with
  | zero => cases h; cases h'; exact hs
  | succ n ih =>
    obtain ⟨u, hstep, hrun⟩ := runSteps_succ_eq_next h
    obtain ⟨u', hstep', hrun'⟩ := runSteps_succ_eq_next h'
    exact ih (hs.after_step hstep hstep') hrun hrun'

/-- Settles O14, by induction on the number of steps: differing in STATUS alone is kept by a step. -/
theorem statusNeverReachesLaterResults : Obligations.StatusNeverReachesLaterResults := by
  intro n s t t' st h h'
  have hs : AgreeButStatus s { s with regs := { s.regs with status := st } } := ⟨rfl, rfl, rfl, rfl⟩
  obtain ⟨hres, hkind, hpins, hup⟩ := hs.after_run h h'
  exact ⟨hres, hkind, hpins, hup⟩

/-! ### KIND and ERRS -/

/-- An effect of a command that changes KIND is that of one of its writers. -/
theorem commandEffect_kind {i : Instr} {e : Effect} (he : CommandEffect i e) {r : Registers}
    (hk : (e.apply r).kind ≠ r.kind) :
    i = .clrkind ∨ i = .srst ∨ (∃ k, i = .setkind k) ∨ ∃ a, i = .kindq a := by
  cases he with
  | succeed => exact absurd rfl hk
  | fail => exact absurd rfl hk
  | clrkind => exact .inl rfl
  | srst => exact .inr (.inl rfl)
  | setkind k => exact .inr (.inr (.inl ⟨k, rfl⟩))
  | kindq a => exact .inr (.inr (.inr ⟨a, rfl⟩))

/-- Settles O16, by the effects of a step. -/
theorem onlyKindWritersChangeKind : Obligations.OnlyKindWritersChangeKind := by
  intro s t hstep hk
  obtain ⟨e, he, rfl⟩ := effect_of_step hstep
  cases he with
  | reset hrst => exact .inl hrst
  | idle => exact absurd rfl hk
  | command hrst hcmd hdec he => exact .inr ⟨_, _, ⟨hrst, hcmd⟩, hdec, commandEffect_kind he hk⟩
  | illegal => exact absurd rfl hk

/-- RV, and ERRS on an error, after any command's effect (R162): the invariant's clauses, which it establishes. -/
theorem commandEffect_status {i : Instr} {e : Effect} (he : CommandEffect i e) (r : Registers) :
    (e.apply r).status.rv = true ∧ ((e.apply r).status.code ≠ .ok → (e.apply r).status.errs = true) := by
  constructor
  · cases he <;> rfl
  · intro hc
    obtain ⟨-, herrs, -⟩ := (regInv_of_commandEffect he r).error_clears hc
    exact herrs

/-- Only SRST's effect clears ERRS (R26). -/
theorem commandEffect_errs {i : Instr} {e : Effect} (he : CommandEffect i e) {r : Registers}
    (hset : r.status.errs = true) (hclear : (e.apply r).status.errs = false) : i = .srst := by
  cases he with
  | srst => rfl
  | _ => simp [Effect.apply, finishStatus, hset] at hclear

/-- Settles O18, by the effects of a step. -/
theorem errsIsStickyUntilReset : Obligations.ErrsIsStickyUntilReset := by
  constructor
  · rintro s t w ⟨hrst, hcmd⟩ hstep
    obtain ⟨e, he, rfl⟩ := effect_of_step hstep
    cases he with
    | reset hrst' => simp [hrst] at hrst'
    | idle _ hcmd' => simp [hcmd] at hcmd'
    | command _ _ _ he => exact commandEffect_status he s.regs
    | illegal => exact ⟨rfl, fun _ => finishStatus_error_errs .illegal s.regs.status (by decide)⟩
  · intro s t hstep hset hclear
    obtain ⟨e, he, rfl⟩ := effect_of_step hstep
    cases he with
    | reset hrst => exact .inl hrst
    | idle => exact absurd (hset.symm.trans hclear) (by decide)
    | command hrst hcmd hdec he =>
      cases commandEffect_errs he hset hclear
      exact .inr ⟨hrst, hcmd.trans (congrArg some (word_eq_of_decode_srst hdec))⟩
    | illegal => simp [nextState, Effect.apply, finishStatus] at hclear

/-! ### Runs and steps -/

/-- A step is the response of the registers to the pins; the list of later pins only moves up. -/
theorem step_eq_respond (s : State) : step s = .next (nextState s (respond s.regs s.pins)) := by
  obtain ⟨e, -, hstep⟩ := step_effect s.pins s.regs.kind
  have hrespond : respond s.regs s.pins = e.apply s.regs := by
    rw [respond, hstep { regs := s.regs, pins := s.pins, upcoming := [] } rfl rfl]
    rfl
  rw [hrespond, hstep s rfl rfl]

/-- With the list `p :: ps` on the ports, the state after a step has `ps` on them. -/
theorem nextState_withBeats_cons (s : State) (p : Pins) (ps : List Pins) (r : Registers) :
    nextState (withBeats s (p :: ps)) r = withBeats { s with regs := r } ps :=
  State.eq_of_fields (by simp [nextState]) (by simp [nextState]) (by simp [nextState])

/-- Settles O51, by induction on the host's list. -/
theorem runIsFoldOfResponses : Obligations.RunIsFoldOfResponses := by
  intro ps
  induction ps with
  | nil => exact fun s => rfl
  | cons p ps ih =>
    intro s
    calc runSteps (p :: ps).length (withBeats s (p :: ps))
      _ = runSteps ps.length (nextState (withBeats s (p :: ps)) (respond s.regs p)) :=
        runSteps_succ_of_step (step_eq_respond (withBeats s (p :: ps))) ps.length
      _ = runSteps ps.length (withBeats { s with regs := respond s.regs p } ps) := by rw [nextState_withBeats_cons]
      _ = _ := ih { s with regs := respond s.regs p }

/-- Settles O6: a legal word runs its command, an ILLEGAL word is rejected by the decoder and fails. -/
theorem stepRunsTheDecodedCommand : Obligations.StepRunsTheDecodedCommand := by
  constructor
  · exact fun s t w i => step_of_exec
  · intro s w hw hill
    obtain ⟨x, hdec⟩ := decode_error_of_illegalCase hill
    rw [step_of_illegal hw hdec, fail_eq .illegal s (by decide)]
    rfl

/-- What SRST leaves: the reset values with RV = 1 (R36, R142). -/
theorem exec_srst (s : State) :
    exec .srst s = .next { s with regs := { Registers.reset with status := { rv := true, errs := false, code := .ok } } } :=
  rfl

/-- Settles O10: the reset values are computed, and SRST's are those of `exec_srst`. -/
theorem resetRegisterValues : Obligations.ResetRegisterValues := by
  refine ⟨rfl, rfl, rfl, rfl, rfl, rfl, rfl, rfl, by decide, rfl, rfl, by decide, by decide, by decide, ?_⟩
  exact fun s => ⟨_, exec_srst s, rfl⟩

/-! ### Host reads -/

/-- The word at KIND's address (R23, R35). -/
theorem hostRead_kind (s : State) : hostRead s 0x01 = 0#14 ++ s.regs.kind.toBits := rfl

/-- KV = 1 and K at KIND's address for a set kind. -/
theorem hostRead_kind_set {s : State} {k : CardKind} (h : s.regs.kind = .set k) :
    hostRead s 0x01 = 0#14 ++ (1#1 ++ k.bit) := by
  rw [hostRead_kind, h]
  rfl

theorem hostRead_kind_unset {s : State} (h : s.regs.kind = .unset) : hostRead s 0x01 = 0b00 := by
  rw [hostRead_kind, h]
  rfl

/-- A kind write that completes with OK leaves the kind it was given (R143). -/
theorem writeKind_kind_of_ok {k : CardKind} {s : State} (h : (writeKind k s).regs.status.code = .ok) :
    (writeKind k s).regs.kind = .set k := by
  rcases writeKind_cases k s with ⟨_, -, hw⟩ | ⟨-, hw⟩
  · rw [hw] at h; cases h
  · rw [hw]; rfl

/-- The test of R145 on the byte as a number. -/
theorem kindOfAtqa1_eq (a : Byte) : kindOfAtqa1 a = if a.toNat = 2 then .classic4K else .classic1K := by
  simp only [kindOfAtqa1, Config.atqa4K, ← BitVec.toNat_inj]
  rfl

/-- Settles O17: each of the three values of KIND reads as R24 says, and each writer leaves its own. -/
theorem kindHoldsOnlyLegalValues : Obligations.KindHoldsOnlyLegalValues := by
  refine ⟨fun s => ?_, fun s => ⟨⟨_, rfl, hostRead_kind_unset rfl⟩, ⟨_, rfl, hostRead_kind_unset rfl⟩⟩,
    hostRead_kind_unset rfl, fun s t hrst hstep => ?_,
    fun s t k hexec hok => ?_, fun s t a hexec hok => ?_⟩
  · cases hk : s.regs.kind with
    | unset => exact .inl (hostRead_kind_unset hk)
    | set k =>
      cases k with
      | classic1K => exact .inr (.inl (hostRead_kind_set hk))
      | classic4K => exact .inr (.inr (hostRead_kind_set hk))
  · rw [step_of_rst hrst] at hstep
    cases hstep
    exact hostRead_kind_unset rfl
  · cases hexec
    rw [hostRead_kind_set (writeKind_kind_of_ok hok)]
    cases k <;> rfl
  · cases hexec
    rw [hostRead_kind_set (writeKind_kind_of_ok hok), kindOfAtqa1_eq]
    split <;> rfl

/-- STATUS as a number (R26). -/
theorem statusBits_toNat (st : Status) :
    st.toBits.toNat = 128 * st.rv.toNat + 64 * st.errs.toNat + st.code.toBits.toNat := by
  rcases st with ⟨rv, errs, code⟩
  cases rv <;> cases errs <;> cases code <;> rfl

/-- A narrow value is zero-extended in its word (R35). -/
theorem zero_append_toNat {m n : Nat} (x : BitVec n) : (0#m ++ x).toNat = x.toNat := by
  simp [BitVec.toNat_append]

/-- A byte pair as a number: the lower-numbered byte in bits [7:0] (R35). -/
theorem bytePair_toNat (low high : Byte) : (bytePair low high).toNat = low.toNat + 256 * high.toNat := by
  rw [bytePair, word_toNat]
  omega

/-- Two neighbouring bytes of a byte register, read as a pair. -/
theorem bytePair_of_vector {n k : Nat} (v : Vector Byte n) (hk : k + 1 < n) :
    ∃ low high, v[k]? = some low ∧ v[k + 1]? = some high
      ∧ (bytePair v[k] v[k + 1]).toNat = low.toNat + 256 * high.toNat :=
  ⟨v[k], v[k + 1], Vector.getElem?_eq_getElem _, Vector.getElem?_eq_getElem _, bytePair_toNat _ _⟩

/-- No register is mapped from 0x12 on (R35). -/
theorem readMap_unmapped (r : Registers) {a : BitVec 5} (h : 0x12 ≤ a.toNat) : readMap r a = 0 := by
  unfold readMap
  split
  case h_19 => rfl
  all_goals omega

/-- KIND as a number (R23). -/
theorem kindBits_toNat (k : KindReg) :
    k.toBits.toNat = match k with | .unset => 0 | .set .classic1K => 2 | .set .classic4K => 3 := by
  rcases k with _ | k
  · rfl
  · cases k <;> rfl

/-- Settles O47: each address by its arm of the read map, its word read as a number. -/
theorem readMapReturnsEveryRegister : Obligations.ReadMapReturnsEveryRegister := by
  intro s
  refine ⟨?status, ?kind, rfl, ?tup, rfl, ?perms, ?integrity, ?keyA, ?acr, ?keyB, fun a => readMap_unmapped s.regs⟩
  case status => exact (zero_append_toNat s.regs.status.toBits).trans (statusBits_toNat s.regs.status)
  case kind => exact (zero_append_toNat s.regs.kind.toBits).trans (kindBits_toNat s.regs.kind)
  case tup => exact zero_append_toNat s.regs.results.tup
  case perms =>
    intro i
    fin_cases i
    · exact zero_append_toNat s.regs.results.perm0
    · exact zero_append_toNat s.regs.results.perm1
    · exact zero_append_toNat s.regs.results.perm2
    · exact zero_append_toNat s.regs.results.perm3
  case integrity =>
    show (0#14 ++ BitVec.ofBool s.regs.results.intok ++ BitVec.ofBool s.regs.results.intv).toNat = _
    cases s.regs.results.intok <;> cases s.regs.results.intv <;> rfl
  case keyA =>
    intro j hj
    interval_cases j <;> exact bytePair_of_vector s.regs.results.keyA (by decide)
  case acr =>
    intro j hj
    interval_cases j <;> exact bytePair_of_vector s.regs.results.acr (by decide)
  case keyB =>
    intro j hj
    interval_cases j <;> exact bytePair_of_vector s.regs.results.keyB (by decide)

end Sys2Proof.StateFamily


/-! ### The byte lanes of DINBUS -/

namespace Sys2Proof.MemoryFamily

open Sys2Proof Sys2Proof.Machine Sys2Proof.Claims Sys2Proof.StateFamily

theorem dinOfBus_getElem (bus : BitVec 128) {k : Nat} (hk : k < 16) : (dinOfBus bus)[k] = busLane bus k := by
  interval_cases k <;> rfl

/-- Bit i of a bus is bit i % 8 of lane i / 8. -/
theorem getLsbD_eq_busLane (bus : BitVec 128) (i : Nat) : bus.getLsbD i = (busLane bus (i / 8)).getLsbD (i % 8) := by
  simp [busLane, Nat.mod_lt, Nat.div_add_mod]

/-- A bus is determined by its sixteen lanes. -/
theorem bus_eq_of_busLane_eq {bus bus' : BitVec 128} (h : ∀ k < 16, busLane bus k = busLane bus' k) : bus = bus' := by
  apply BitVec.eq_of_getLsbD_eq
  intro i hi
  rw [getLsbD_eq_busLane bus, getLsbD_eq_busLane bus', h (i / 8) (by omega)]

/-- A byte put below others is the lowest lane. -/
theorem lane_append_zero {n : Nat} (high : BitVec n) (low : Byte) : (high ++ low).extractLsb' 0 8 = low := by
  simp [BitVec.extractLsb'_append_eq_of_add_le]

/-- The lanes above the lowest are those of the bytes above it. -/
theorem lane_append_succ {n : Nat} (high : BitVec n) (low : Byte) (k : Nat) :
    (high ++ low).extractLsb' (8 * (k + 1)) 8 = high.extractLsb' (8 * k) 8 := by
  rw [BitVec.extractLsb'_append_eq_of_le (by omega)]
  congr 1

/-- Lane k of the bus that carries a DIN value is its byte k (R41): k bytes are passed, and the next is the lowest. -/
theorem busLane_busOfDin (d : Din) {k : Nat} (hk : k < 16) : busLane (busOfDin d) k = d[k] := by
  -- `lane_append_succ` applies once the width 128 reads as a sum of byte widths
  change ((_ : BitVec _) ++ d[0]).extractLsb' (8 * k) 8 = d[k]
  interval_cases k <;> simp only [lane_append_succ, lane_append_zero, Nat.mul_zero, BitVec.extractLsb'_eq_self]

/-- Settles O48: the bytes are the lanes by definition, and both inverse laws are compared lane by lane. -/
theorem dinBusLanesAreBytes : Obligations.DinBusLanesAreBytes := by
  refine ⟨fun bus k hk => ?_, fun bus => ?_, fun d => ?_⟩
  · rw [Vector.getElem?_eq_getElem hk, dinOfBus_getElem bus hk, busLane]
  · exact bus_eq_of_busLane_eq fun k hk => (busLane_busOfDin _ hk).trans (dinOfBus_getElem bus hk)
  · exact Vector.ext fun k hk => (dinOfBus_getElem _ hk).trans (busLane_busOfDin d hk)

/-! ### What a command reads of DIN -/

@[simp] theorem drivenWith_regs (s : State) (d : Din) : (drivenWith s d).regs = s.regs := rfl
@[simp] theorem drivenWith_din (s : State) (d : Din) : (drivenWith s d).pins.din = d := rfl

/-- ACDEC and ACDECC read DIN[0..3] alone (R42 (b)). -/
theorem dinAc_congr {d d' : Din} (h : ∀ k, k < 4 → d[k]? = d'[k]?) : dinAc d = dinAc d' := by
  have byte_eq : ∀ k (hk : k < 4), d[k] = d'[k] := fun k hk =>
    Option.some.inj (by simpa [Vector.getElem?_eq_getElem (show k < 16 by omega)] using h k hk)
  rw [dinAc, dinAc, byte_eq 0 (by decide), byte_eq 1 (by decide), byte_eq 2 (by decide), byte_eq 3 (by decide)]

/-- A kind write reads no port. -/
theorem writeKind_drivenWith (k : CardKind) (s : State) (d : Din) :
    writeKind k (drivenWith s d) = drivenWith (writeKind k s) d := by
  rcases writeKind_effect k s.regs.kind with h | h <;> rw [h s rfl, h (drivenWith s d) rfl] <;> rfl

/-- Driving DIN with other bytes that no operand of the command shows changes nothing but DIN in what the command leaves:
only ACDEC, ACDECC and TVIEW name DIN at all (R41, R42). -/
theorem exec_drivenWith {i : Instr} {s : State} {d : Din} (hview : i ≠ .tview)
    (hac : i = .acdec ∨ i = .acdecc → dinAc d = dinAc s.pins.din) :
    exec i (drivenWith s d) = mapNext (fun t => drivenWith t d) (exec i s) := by
  cases i with
  | tview => exact absurd rfl hview
  | acdec => simp only [exec, execAcdec, drivenWith_din, hac (.inl rfl)]; rfl
  | acdecc => simp only [exec, execAcdecc, drivenWith_din, hac (.inr rfl)]; rfl
  | setkind k => exact congrArg _ (writeKind_drivenWith k s d)
  | kindq a => exact congrArg _ (writeKind_drivenWith (kindOfAtqa1 a) s d)
  | trlfst b => simp only [exec, execTrlfst]; split <;> rfl
  | trlsec sec =>
    simp only [exec, execTrlsec, drivenWith_regs]
    split
    · rfl
    · split <;> rfl
  | chkblk b => simp only [exec, execChkblk, drivenWith_regs]; split <;> rfl
  | _ => rfl

/-- Settles O49: the command completes, and with the other DIN value it leaves the same state but for DIN. -/
theorem unusedDinBytesAreIgnored : Obligations.UnusedDinBytesAreIgnored := by
  intro i s d hview hbytes
  obtain ⟨e, -, hexec⟩ := exec_effect i s.pins.din s.regs.kind
  have hs := hexec s rfl rfl
  refine ⟨_, drivenWith _ d, hs, ?_, drivenWith_regs _ d⟩
  rw [exec_drivenWith hview fun hi => dinAc_congr (hbytes hi), hs, mapNext_next]

/-! ### What a command's results depend on -/

/-- The two register values show the same response to a command: result fields, CODE and KIND (R45). -/
structure SameResponse (r r' : Registers) : Prop where
  results : r'.results = r.results
  code : r'.status.code = r.status.code
  kind : r'.kind = r.kind

/-- An effect other than that of an idle step carries nothing but KIND from the registers before into the response. -/
theorem effect_sameResponse {e : Effect} (he : e ≠ .idle) {r r' : Registers} (hkind : r'.kind = r.kind) :
    SameResponse (e.apply r) (e.apply r') := by
  cases e with
  | idle => exact absurd rfl he
  | reset => exact ⟨rfl, rfl, rfl⟩
  | succeed results => exact ⟨rfl, rfl, hkind⟩
  | fail code => exact ⟨rfl, rfl, hkind⟩
  | writeKind kind results => exact ⟨rfl, rfl, rfl⟩
  | softReset => exact ⟨rfl, rfl, rfl⟩

theorem commandEffect_ne_idle {i : Instr} {e : Effect} (he : CommandEffect i e) : e ≠ .idle := by
  cases he <;> nofun

/-- A step with a word on the command port is no idle step. -/
theorem pinsEffect_ne_idle {p : Pins} {w : Word} {e : Effect} (he : PinsEffect p e) (hcmd : p.cmd = some w) :
    e ≠ .idle := by
  rintro rfl
  cases he with
  | idle _ hnone => exact absurd (hcmd.symm.trans hnone) nofun
  | command _ _ _ hc => exact commandEffect_ne_idle hc rfl

/-- Two states that issue the same word with the same DIN have the same pins. -/
theorem pins_eq_of_issues {s s' : State} {w : Word} (h : Issues s w) (h' : Issues s' w)
    (hdin : s'.pins.din = s.pins.din) : s'.pins = s.pins := by
  obtain ⟨hrst, hcmd⟩ := h
  obtain ⟨hrst', hcmd'⟩ := h'
  rw [Pins.mk.injEq]
  exact ⟨hrst'.trans hrst.symm, hcmd'.trans hcmd.symm, hdin⟩

/-- Settles O13: pins and KIND pick one effect for both states. -/
theorem responseIsFunctionOfPortsAndKind : Obligations.ResponseIsFunctionOfPortsAndKind := by
  intro s s' t t' w hw hw' hdin hkind h h'
  have hcmd : s.pins.cmd = some w := hw.right
  obtain ⟨e, he, hstep⟩ := step_effect s.pins s.regs.kind
  rw [hstep s rfl rfl] at h
  rw [hstep s' (pins_eq_of_issues hw hw' hdin) hkind] at h'
  cases h
  cases h'
  obtain ⟨hresults, hcode, hkind⟩ := effect_sameResponse (pinsEffect_ne_idle he hcmd) hkind
  exact ⟨hresults, hcode, hkind⟩

/-- Settles O50: a command that is no writer of KIND leaves DIN and KIND, so its second run has the effect of the first. -/
theorem repeatedCommandGivesSameResults : Obligations.RepeatedCommandGivesSameResults := by
  intro i s t u hset hkindq hclr hsrst h h'
  obtain ⟨e, he, hexec⟩ := exec_effect i s.pins.din s.regs.kind
  have hkind : (e.apply s.regs).kind = s.regs.kind := by
    by_contra hk
    rcases commandEffect_kind he hk with hi | hi | ⟨k, hi⟩ | ⟨a, hi⟩
    · exact hclr hi
    · exact hsrst hi
    · exact hset k hi
    · exact hkindq a hi
  rw [hexec s rfl rfl] at h
  cases h
  rw [hexec { s with regs := e.apply s.regs } rfl hkind] at h'
  cases h'
  obtain ⟨hresults, hcode, hkind⟩ := effect_sameResponse (commandEffect_ne_idle he) hkind
  exact ⟨hresults, hcode, hkind⟩

end Sys2Proof.MemoryFamily

/-! ### Decoding the word of a command -/

namespace Sys2Proof.EncodingFamily

open Sys2Proof Sys2Proof.Machine Sys2Proof.Claims Sys2Proof.StateFamily

/-- A word with FN = 0 is read as a command with the low byte for its operand (R62). -/
theorem decodeImmediate_append {high low : Byte} {make : Byte → Instr} (hfn : high.extractLsb' 0 4 = 0) :
    decodeImmediate (high ++ low) make = .ok (make low) := by
  rw [decodeImmediate, fnField_append, immField_append, if_pos hfn]

theorem decode_encode_classify : ∀ (r : Role) (t : TupleValue), decode (encode (.classify r t)) = .ok (.classify r t)
  | .data => by decide
  | .trailer => by decide

/-- Settles O1, by the form of the command's word: fixed, with the operand in IMM, CLASS or SETKIND. -/
theorem decodeOfEncodeIsTheCommand : Obligations.DecodeOfEncodeIsTheCommand := by
  intro i
  cases i with
  | nop | clrkind | srst | acdec | acdecc | tview => rfl
  | isfirst b | istrl b | trlfst b | trlsec b | secof b | fstof b | secsz b | chkblk b | kindq b =>
    rw [encode, decode, opField_append]
    exact decodeImmediate_append (by decide)
  | classify r t => exact decode_encode_classify r t
  | setkind k => cases k <;> rfl

/-- Settles O5: each written word is the word of its command. -/
theorem writtenWordsDecode : Obligations.WrittenWordsDecode :=
  ⟨decodeOfEncodeIsTheCommand .srst, decodeOfEncodeIsTheCommand (.isfirst 128), decodeOfEncodeIsTheCommand (.trlsec 39),
    decodeOfEncodeIsTheCommand .acdecc, decodeOfEncodeIsTheCommand (.classify .trailer 1),
    decodeOfEncodeIsTheCommand .tview, decodeOfEncodeIsTheCommand (.setkind .classic4K),
    decodeOfEncodeIsTheCommand (.kindq 0x42)⟩

/-- Two commands with one word are one command. -/
theorem encode_injective : Function.Injective encode := fun i j h =>
  Except.ok.inj ((decodeOfEncodeIsTheCommand i).symm.trans ((congrArg decode h).trans (decodeOfEncodeIsTheCommand j)))

/-! ### The word of a command from its fields

The fixed bits of a word with operands, and the operand fields, are the word: so a word that has a command's fixed bits
is that command's word. -/

theorem roleBit_ofBit : ∀ r : BitVec 1, (Role.ofBit r).bit = r := by decide

theorem cardKindBit_ofBit : ∀ k : BitVec 1, (CardKind.ofBit k).bit = k := by decide

/-- A field as the number it holds. -/
theorem field_eq_ofNat {w : Word} {start len n : Nat} (h : w.toNat / 2 ^ start % 2 ^ len = n % 2 ^ len) :
    w.extractLsb' start len = BitVec.ofNat len n := by
  apply BitVec.eq_of_toNat_eq
  rw [BitVec.extractLsb'_toNat, Nat.shiftRight_eq_div_pow, BitVec.toNat_ofNat, h]

/-- The high byte (OP and FN) and IMM are the word (R60). -/
theorem append_immField {w : Word} {high : Byte} (h : w.extractLsb' 8 8 = high) : high ++ immField w = w := by
  rw [← h]
  exact BitVec.extractLsb'_append_extractLsb'

/-- The high byte ends in the flag r or k (R61). -/
theorem append_flagField (w : Word) : w.extractLsb' 9 7 ++ flagField w = w.extractLsb' 8 8 :=
  BitVec.extractLsb'_append_extractLsb'_eq_extractLsb' (start₁ := 8) rfl

/-- The upper bits of IMM and the tuple t of R61 end the word. -/
theorem append_tupleField (w : Word) : w.extractLsb' 8 8 ++ w.extractLsb' 3 5 ++ tupleField w = w := by
  have hhigh : w.extractLsb' 8 8 ++ w.extractLsb' 3 5 = w.extractLsb' 3 13 :=
    BitVec.extractLsb'_append_extractLsb'_eq_extractLsb' (start₁ := 3) rfl
  rw [hhigh]
  exact BitVec.extractLsb'_append_extractLsb'

theorem encode_classify_of_fields {w : Word} (hop : w.extractLsb' 9 7 = 0b1011000#7) (himm : w.extractLsb' 3 5 = 0#5) :
    encode (.classify (Role.ofBit (flagField w)) (tupleField w)) = w := by
  rw [encode, roleBit_ofBit, ← hop, ← himm, append_flagField, append_tupleField]

theorem encode_setkind_of_fields {w : Word} (hop : w.extractLsb' 9 7 = 0b1101000#7) (himm : immField w = 0#8) :
    encode (.setkind (CardKind.ofBit (flagField w))) = w := by
  rw [encode, cardKindBit_ofBit, ← hop, ← himm, append_flagField, append_immField rfl]

/-- Every word outside the cases (a) to (f) of R64 is the word of a command. -/
theorem exists_encode_of_not_illegalCase {w : Word} (hw : ¬ IllegalCase w) : ∃ i, encode i = w := by
  have hlt := w.isLt
  have hop : w.toNat / 4096 < 16 := by omega
  simp only [IllegalCase, IllegalFields] at hw
  -- one goal for each OP, in the order of R62
  interval_cases h : w.toNat / 4096
  · have hword : w.toNat = 0x0000 ∨ w.toNat = 0x0100 ∨ w.toNat = 0x0200 := by omega
    rcases hword with hn | hn | hn
    · exact ⟨.nop, BitVec.eq_of_toNat_eq hn.symm⟩
    · exact ⟨.clrkind, BitVec.eq_of_toNat_eq hn.symm⟩
    · exact ⟨.srst, BitVec.eq_of_toNat_eq hn.symm⟩
  · exact ⟨.isfirst (immField w), append_immField (field_eq_ofNat (by omega))⟩
  · exact ⟨.istrl (immField w), append_immField (field_eq_ofNat (by omega))⟩
  · exact ⟨.trlfst (immField w), append_immField (field_eq_ofNat (by omega))⟩
  · exact ⟨.trlsec (immField w), append_immField (field_eq_ofNat (by omega))⟩
  · exact ⟨.secof (immField w), append_immField (field_eq_ofNat (by omega))⟩
  · exact ⟨.fstof (immField w), append_immField (field_eq_ofNat (by omega))⟩
  · exact ⟨.secsz (immField w), append_immField (field_eq_ofNat (by omega))⟩
  · exact ⟨.chkblk (immField w), append_immField (field_eq_ofNat (by omega))⟩
  · exact ⟨.acdec, BitVec.eq_of_toNat_eq (show 0x9000 = w.toNat by omega)⟩
  · exact ⟨.acdecc, BitVec.eq_of_toNat_eq (show 0xA000 = w.toNat by omega)⟩
  · exact ⟨_, encode_classify_of_fields (field_eq_ofNat (by omega)) (field_eq_ofNat (by omega))⟩
  · exact ⟨.tview, BitVec.eq_of_toNat_eq (show 0xC000 = w.toNat by omega)⟩
  · exact ⟨_, encode_setkind_of_fields (field_eq_ofNat (by omega)) (field_eq_ofNat (by omega))⟩
  · exact ⟨.kindq (immField w), append_immField (field_eq_ofNat (by omega))⟩
  · exact absurd (.inl rfl) hw

/-- The decoder rejects exactly the words of the cases (a) to (f) of R64. -/
theorem decode_eq_error_iff {w : Word} : (∃ e, decode w = .error e) ↔ IllegalCase w := by
  refine ⟨?_, decode_error_of_illegalCase⟩
  rintro ⟨e, he⟩
  by_contra hw
  obtain ⟨i, rfl⟩ := exists_encode_of_not_illegalCase hw
  cases (decodeOfEncodeIsTheCommand i).symm.trans he

/-- Settles O2: the word is outside the cases of R64, hence the word of some command, which is the one it decodes to. -/
theorem encodeOfDecodeIsTheWord : Obligations.EncodeOfDecodeIsTheWord := by
  intro w i h
  have hw : ¬ IllegalCase w := by
    rw [← decode_eq_error_iff, h]
    nofun
  obtain ⟨j, rfl⟩ := exists_encode_of_not_illegalCase hw
  cases (decodeOfEncodeIsTheCommand j).symm.trans h
  exact ⟨rfl, i.wellFormed_of_type⟩

/-! ### The opcode map -/

/-- In a field that a row's mask covers, a word that selects the row has the bits of the row's pattern. -/
theorem field_of_selects {r : OpcodeRow} {w : Word} (h : r.selects w = true) (start len : Nat)
    (hmask : r.mask.extractLsb' start len = BitVec.allOnes len) :
    w.extractLsb' start len = r.pattern.extractLsb' start len := by
  have heq : w &&& r.mask = r.pattern := beq_iff_eq.mp h
  rw [← heq, BitVec.extractLsb'_and, hmask, BitVec.and_allOnes]

/-- A row with a full mask is selected by its pattern alone. -/
theorem pattern_eq_of_selects {m : Mnemonic} {p w : Word} (h : (OpcodeRow.mk m p 0xFFFF).selects w = true) : p = w := by
  have heq : w &&& 0xFFFF = p := beq_iff_eq.mp h
  rw [← heq]
  exact BitVec.and_allOnes

/-- A word that selects a row is the word of a command of that row. -/
theorem exists_encode_of_selects {r : OpcodeRow} {w : Word} (hr : r ∈ opcodeMap) (h : r.selects w = true) :
    ∃ i, encode i = w ∧ i.mnemonic = r.mnemonic := by
  simp only [opcodeMap, List.mem_cons, List.not_mem_nil, or_false] at hr
  rcases hr with rfl | rfl | rfl | rfl | rfl | rfl | rfl | rfl | rfl | rfl | rfl | rfl | rfl | rfl | rfl | rfl | rfl
  -- a full mask fixes the word, the other masks fix the bits beside the operand fields
  · exact ⟨.nop, pattern_eq_of_selects h, rfl⟩
  · exact ⟨.clrkind, pattern_eq_of_selects h, rfl⟩
  · exact ⟨.srst, pattern_eq_of_selects h, rfl⟩
  · exact ⟨.isfirst (immField w), append_immField (field_of_selects h 8 8 rfl), rfl⟩
  · exact ⟨.istrl (immField w), append_immField (field_of_selects h 8 8 rfl), rfl⟩
  · exact ⟨.trlfst (immField w), append_immField (field_of_selects h 8 8 rfl), rfl⟩
  · exact ⟨.trlsec (immField w), append_immField (field_of_selects h 8 8 rfl), rfl⟩
  · exact ⟨.secof (immField w), append_immField (field_of_selects h 8 8 rfl), rfl⟩
  · exact ⟨.fstof (immField w), append_immField (field_of_selects h 8 8 rfl), rfl⟩
  · exact ⟨.secsz (immField w), append_immField (field_of_selects h 8 8 rfl), rfl⟩
  · exact ⟨.chkblk (immField w), append_immField (field_of_selects h 8 8 rfl), rfl⟩
  · exact ⟨.acdec, pattern_eq_of_selects h, rfl⟩
  · exact ⟨.acdecc, pattern_eq_of_selects h, rfl⟩
  · exact ⟨_, encode_classify_of_fields (field_of_selects h 9 7 rfl) (field_of_selects h 3 5 rfl), rfl⟩
  · exact ⟨.tview, pattern_eq_of_selects h, rfl⟩
  · exact ⟨_, encode_setkind_of_fields (field_of_selects h 9 7 rfl) (field_of_selects h 0 8 rfl), rfl⟩
  · exact ⟨.kindq (immField w), append_immField (field_of_selects h 8 8 rfl), rfl⟩

/-- The word of every command selects a row of its mnemonic. -/
theorem encode_selects_row (i : Instr) : Laws.EncodesRow.Statement i := by
  cases i with
  | nop => exact Laws.EncodesRow.nop
  | clrkind => exact Laws.EncodesRow.clrkind
  | srst => exact Laws.EncodesRow.srst
  | isfirst b => exact Laws.EncodesRow.isfirst b
  | istrl b => exact Laws.EncodesRow.istrl b
  | trlfst b => exact Laws.EncodesRow.trlfst b
  | trlsec sec => exact Laws.EncodesRow.trlsec sec
  | secof b => exact Laws.EncodesRow.secof b
  | fstof b => exact Laws.EncodesRow.fstof b
  | secsz b => exact Laws.EncodesRow.secsz b
  | chkblk b => exact Laws.EncodesRow.chkblk b
  | acdec => exact Laws.EncodesRow.acdec
  | acdecc => exact Laws.EncodesRow.acdecc
  | classify r t => exact Laws.EncodesRow.classify r t
  | tview => exact Laws.EncodesRow.tview
  | setkind k => exact Laws.EncodesRow.setkind k
  | kindq a => exact Laws.EncodesRow.kindq a

/-- The decoder rejects exactly the words that select no row (R63). -/
theorem decode_eq_error_iff_no_row {w : Word} :
    (∃ e, decode w = .error e) ↔ ∀ r ∈ opcodeMap, r.selects w = false := by
  constructor
  · rintro ⟨e, he⟩ r hr
    by_contra hs
    obtain ⟨i, rfl, -⟩ := exists_encode_of_selects hr (Bool.not_eq_false _ ▸ hs)
    cases (decodeOfEncodeIsTheCommand i).symm.trans he
  · intro hnone
    cases hdec : decode w with
    | error e => exact ⟨e, rfl⟩
    | ok i =>
      obtain ⟨rfl, -⟩ := encodeOfDecodeIsTheWord w i hdec
      obtain ⟨r, hr, -, hs⟩ := encode_selects_row i
      cases (hnone r hr).symm.trans hs

theorem opcodeMap_mnemonics_distinct : ∀ r ∈ opcodeMap, ∀ r' ∈ opcodeMap, r.mnemonic = r'.mnemonic → r = r' := by
  decide

/-- The match values of two rows differ in OP, or, for OP = 0, in FN under a full mask (R63). -/
theorem opcodeMap_patterns_differ : ∀ r ∈ opcodeMap, ∀ r' ∈ opcodeMap, r ≠ r' →
    opField r.pattern ≠ opField r'.pattern
      ∨ (opField r.pattern = 0 ∧ opField r'.pattern = 0 ∧ fnField r.pattern ≠ fnField r'.pattern
          ∧ r.mask = 0xFFFF ∧ r'.mask = 0xFFFF) := by
  decide

/-- Settles O3: a selected row is the row of the command the word encodes, and a word encodes at most one command. -/
theorem decodeIsOpcodeMapSearch : Obligations.DecodeIsOpcodeMapSearch := by
  refine ⟨fun w r hr hs => ?_, fun w => decode_eq_error_iff_no_row.mpr, fun w r r' hr hr' hs hs' => ?_,
    fun r r' hr hr' => opcodeMap_patterns_differ r hr r' hr'⟩
  · obtain ⟨i, rfl, hm⟩ := exists_encode_of_selects hr hs
    exact ⟨i, decodeOfEncodeIsTheCommand i, hm⟩
  · obtain ⟨i, hi, hm⟩ := exists_encode_of_selects hr hs
    obtain ⟨j, hj, hm'⟩ := exists_encode_of_selects hr' hs'
    obtain rfl := encode_injective (hi.trans hj.symm)
    exact opcodeMap_mnemonics_distinct r hr r' hr' (hm.symm.trans hm')

/-- Settles O4: no row selected and the cases of R64 both say that the decoder rejects the word. -/
theorem illegalWordsFailByCase : Obligations.IllegalWordsFailByCase := by
  refine fun w s => ⟨decode_eq_error_iff_no_row.symm.trans decode_eq_error_iff, fun hw => ?_⟩
  obtain ⟨e, he⟩ := decode_error_of_illegalCase hw
  refine ⟨fun i hi => (nomatch he.symm.trans hi), ?_⟩
  rw [runWord, he]
  exact congrArg _ (fail_eq .illegal s (by decide))

/-! ### The assembler -/

/-- A command's mnemonic and operand numbers give it back (R61). -/
theorem instrOf_mnemonic_operands (i : Instr) : instrOf i.mnemonic i.operands = some i := by
  cases i with
  | nop | clrkind | srst | acdec | acdecc | tview => rfl
  | isfirst b | istrl b | trlfst b | trlsec b | secof b | fstof b | secsz b | chkblk b | kindq b =>
    simp only [Instr.mnemonic, Instr.operands, instrOf, BitVec.ofNat_toNat, BitVec.setWidth_eq]
  | classify r t =>
    cases r <;> simp [Instr.mnemonic, Instr.operands, instrOf, Role.ofBit, Role.bit]
  | setkind k => cases k <;> rfl

/-- Sixteen bytes are a well-formed `din` operand of a command that takes one, and none is one of the others (R66). -/
theorem dinWellFormed_of_sixteen {takes : Bool} {bytes : List Nat} (hlen : bytes.length = 16)
    (hbytes : ∀ n ∈ bytes, n < 256) : dinWellFormed takes (if takes then some bytes else none) = true := by
  cases takes with
  | false => rfl
  | true => simpa [dinWellFormed, hlen] using hbytes

theorem writtenDin_getElem (din : Option (List Nat)) {k : Nat} (hk : k < 16) : (writtenDin din)[k] = writtenByte din k := by
  interval_cases k <;> rfl

/-- A byte that is written is driven (R66). -/
theorem writtenDin_some_getElem? {bytes : List Nat} {k : Nat} (hk : k < 16) (hlen : k < bytes.length) :
    (writtenDin (some bytes))[k]? = (bytes[k]?).map (BitVec.ofNat 8) := by
  rw [Vector.getElem?_eq_getElem hk, writtenDin_getElem _ hk]
  simp [writtenByte, hlen]

/-- A well-formed written command is driven as the word of its command, with RST low and DIN as written (R66). -/
theorem assemble_command {i : Instr} {din : Option (List Nat)} (hdin : dinWellFormed i.mnemonic.takesDin din = true) :
    assemble { op := i.mnemonic, operands := i.operands, din := din }
      = some { rst := false, cmd := some (encode i), din := writtenDin din } := by
  have hwf : (SourceCmd.mk i.mnemonic i.operands din).wellFormed = true := by
    rw [SourceCmd.wellFormed, hdin, Bool.and_true]
    exact i.wellFormed_of_type
  rw [assemble, if_pos hwf, instrOf_mnemonic_operands]
  rfl

/-- Settles O53: the command's own operands are in range, and the assembler drives the bytes as written. -/
theorem assembledCommandIsItsWord : Obligations.AssembledCommandIsItsWord := by
  intro i bytes hlen hbytes
  refine ⟨_, assemble_command (dinWellFormed_of_sixteen hlen hbytes), rfl, rfl, fun htakes k hk => ?_⟩
  rw [if_pos htakes]
  exact writtenDin_some_getElem? hk (hk.trans_eq hlen.symm)

/-! ### The pseudo-command integrity_check -/

/-- The model's integrity function is the check of R111 on the bits of AC[0..2]. -/
theorem integrity_iff (ac : AcBytes) : integrity ac = true ↔ IntegrityHolds ac[0] ac[1] ac[2] := by
  simp [integrity, inversesAgree, IntegrityHolds, Fin.forall_fin_succ, acC1, acC2, acC3, and_assoc]

/-- The decoder reads the AC bytes that the host drives for them (R42 (b)). -/
theorem dinAc_acDin (ac : AcBytes) : dinAc (acDin ac) = ac := by
  apply Vector.ext
  intro k hk
  interval_cases k <;> rfl

/-- After the one command of integrity_check, INTV = 1 and INTOK is the integrity of the AC bytes (R67, R113). -/
theorem run_integrityCheck (ac : AcBytes) (s : State) :
    ∃ t, runSteps (expand (.integrityCheck ac)).length (withBeats s (expand (.integrityCheck ac))) = .next t
      ∧ t.regs.results.intv = true ∧ t.regs.results.intok = integrity ac := by
  have hstep := step_of_exec (s := withBeats s (expand (.integrityCheck ac))) ⟨rfl, rfl⟩
    (decodeOfEncodeIsTheCommand .acdecc) rfl
  exact ⟨_, runSteps_succ_of_step hstep 0, rfl, congrArg integrity (dinAc_acDin ac)⟩

/-- The word of INTOK and INTV in a state with INTV = 1 (R32, R35). -/
theorem hostRead_checked {s : State} (hv : s.regs.results.intv = true) :
    hostRead s 0x09 = if s.regs.results.intok = true then 3 else 1 := by
  show 0#14 ++ BitVec.ofBool s.regs.results.intok ++ BitVec.ofBool s.regs.results.intv = _
  rw [hv]
  cases s.regs.results.intok <;> rfl

/-- Settles O54: the word at INTOK's address tells the integrity of the AC bytes, which is the check of R111. -/
theorem integrityCheckPseudoReadsIntok : Obligations.IntegrityCheckPseudoReadsIntok := by
  intro ac s
  obtain ⟨t, hrun, hv, hok⟩ := run_integrityCheck ac s
  refine ⟨t, 0x09, hrun, rfl, ?_⟩
  rw [hostRead_checked hv, hok, ← integrity_iff]
  cases integrity ac <;> decide

end Sys2Proof.EncodingFamily

/-! ### What the geometry commands leave -/

namespace Sys2Proof.GeometryFamily

open Sys2Proof Sys2Proof.Machine Sys2Proof.Claims

/-- A boolean in RES is the decision of what it tells (R11). -/
theorem boolNat_eq_ite {x : Bool} {p : Prop} [Decidable p] (h : x = true ↔ p) : boolNat x = if p then 1 else 0 :=
  if_congr h rfl rfl

/-- A command that writes RES alone leaves what R162 says. -/
theorem complete_onlyRes (n : Nat) (s : State) : complete (onlyRes n) s = succeeded s s.regs.kind (resOnly n) :=
  complete_eq (onlyRes n) s

/-- A command that fails leaves what R163 says. -/
theorem fail_eq_failed {c : Code} (hc : c ≠ .ok) (s : State) : fail c s = failed s c := fail_eq c s hc

/-- `i` completes in `s` with OK and leaves RES = `n`, KIND as it was and every other result field 0. -/
def Gives (i : Instr) (s : State) (n : Nat) : Prop := exec i s = .next (succeeded s s.regs.kind (resOnly n))

theorem Gives.of_eq {i : Instr} {s : State} {n m : Nat} (h : Gives i s n) (hn : n = m) : Gives i s m := hn ▸ h

theorem isfirst_gives (b : BlockIndex) (s : State) : Gives (.isfirst b) s (boolNat (isFirstBlock b.toNat)) :=
  congrArg _ (complete_onlyRes _ s)

theorem istrl_gives (b : BlockIndex) (s : State) : Gives (.istrl b) s (boolNat (isTrailerBlock b.toNat)) :=
  congrArg _ (complete_onlyRes _ s)

theorem secof_gives (b : BlockIndex) (s : State) : Gives (.secof b) s (sectorOfBlock b.toNat) :=
  congrArg _ (complete_onlyRes _ s)

theorem fstof_gives (b : BlockIndex) (s : State) : Gives (.fstof b) s (firstBlockOf b.toNat) :=
  congrArg _ (complete_onlyRes _ s)

theorem secsz_gives (b : BlockIndex) (s : State) : Gives (.secsz b) s (sectorSize b.toNat) :=
  congrArg _ (complete_onlyRes _ s)

theorem trlfst_gives {b : BlockIndex} (s : State) (h : trailerOfSectorFirst b.toNat ≤ 255) :
    Gives (.trlfst b) s (trailerOfSectorFirst b.toNat) :=
  (if_neg (Nat.not_lt.mpr h)).trans (congrArg _ (complete_onlyRes _ s))

theorem exec_trlfst_range {b : BlockIndex} (s : State) (h : 255 < trailerOfSectorFirst b.toNat) :
    exec (.trlfst b) s = .next (failed s .range) :=
  (if_pos h).trans (congrArg _ (fail_eq_failed (by decide) s))

theorem exec_trlsec_unset (sec : SectorIndex) {s : State} (hk : s.regs.kind = .unset) :
    exec (.trlsec sec) s = .next (failed s .kindUnset) := by
  rw [exec, execTrlsec, hk]
  exact congrArg _ (fail_eq_failed (by decide) s)

/-- With a kind set, TRLSEC asks whether the card has the sector (R84). -/
theorem exec_trlsec_set (sec : SectorIndex) {s : State} {k : CardKind} (hk : s.regs.kind = .set k) :
    exec (.trlsec sec) s = .next (if sec.toNat < Config.sectors k
      then succeeded s s.regs.kind (resOnly (trailerOfSectorIndex k sec.toNat)) else failed s .range) := by
  rw [exec, execTrlsec, hk]
  by_cases h : sec.toNat < Config.sectors k
  · simp only [if_pos h, if_neg (Nat.not_le.mpr h), complete_onlyRes, hk]
  · simp only [if_neg h, if_pos (Nat.not_lt.mp h), fail_eq_failed (show Code.range ≠ .ok by decide)]

theorem trlsec_gives {sec : SectorIndex} {s : State} {k : CardKind} (hk : s.regs.kind = .set k)
    (h : sec.toNat < Config.sectors k) : Gives (.trlsec sec) s (trailerOfSectorIndex k sec.toNat) :=
  (exec_trlsec_set sec hk).trans (congrArg _ (if_pos h))

theorem exec_trlsec_range {sec : SectorIndex} {s : State} {k : CardKind} (hk : s.regs.kind = .set k)
    (h : Config.sectors k ≤ sec.toNat) : exec (.trlsec sec) s = .next (failed s .range) :=
  (exec_trlsec_set sec hk).trans (congrArg _ (if_neg (Nat.not_lt.mpr h)))

theorem exec_chkblk_unset (b : BlockIndex) {s : State} (hk : s.regs.kind = .unset) :
    exec (.chkblk b) s = .next (failed s .kindUnset) := by
  rw [exec, execChkblk, hk]
  exact congrArg _ (fail_eq_failed (by decide) s)

theorem chkblk_gives (b : BlockIndex) {s : State} {k : CardKind} (hk : s.regs.kind = .set k) :
    Gives (.chkblk b) s (if b.toNat < Config.blocks k then 1 else 0) := by
  simp only [Gives, exec, execChkblk, hk, complete_onlyRes, boolNat_eq_ite decide_eq_true_iff]

/-! The word the host reads as the result (R162): RES of a command that completed with OK. -/

theorem Gives.result {i : Instr} {s : State} {n : Nat} (h : Gives i s n) :
    commandResult i s = some (BitVec.ofNat 16 n) := by
  rw [commandResult, h]
  rfl

theorem Gives.result_eq_one_iff {i : Instr} {s : State} {x : Bool} (h : Gives i s (boolNat x)) :
    commandResult i s = some 1 ↔ x = true := by
  rw [h.result]
  cases x <;> decide

theorem Gives.result_eq_zero_iff {i : Instr} {s : State} {x : Bool} (h : Gives i s (boolNat x)) :
    commandResult i s = some 0 ↔ x = false := by
  rw [h.result]
  cases x <;> decide

theorem commandResult_failed {i : Instr} {s : State} {c : Code} (hc : c ≠ .ok) (h : exec i s = .next (failed s c)) :
    commandResult i s = none := by
  rw [commandResult, h]
  exact if_neg fun hv => hc (of_decide_eq_true hv)

/-- A result of TRLSEC is the trailer of a sector that the card has. -/
theorem trlsec_eq_some {sec : SectorIndex} {s : State} {v : Word} (h : commandResult (.trlsec sec) s = some v) :
    ∃ k, s.regs.kind = .set k ∧ sec.toNat < Config.sectors k
      ∧ v = BitVec.ofNat 16 (trailerOfSectorIndex k sec.toNat) := by
  cases hk : s.regs.kind with
  | unset => exact nomatch h.symm.trans (commandResult_failed (by decide) (exec_trlsec_unset sec hk))
  | set k =>
    by_cases hsec : sec.toNat < Config.sectors k
    · exact ⟨k, rfl, hsec, Option.some.inj (h.symm.trans (trlsec_gives hk hsec).result)⟩
    · have hfail := exec_trlsec_range hk (Nat.not_lt.mp hsec)
      exact nomatch h.symm.trans (commandResult_failed (by decide) hfail)

/-! ### The sectors of the block space -/

/-- The last block of the sector of block b: TRLFST of FSTOF(b). -/
def trailerBlockOf (b : Nat) : Nat := trailerOfSectorFirst (firstBlockOf b)

theorem trailerBlockOf_small {b : Nat} (h : b < 128) : trailerBlockOf b = 4 * (b / 4) + 3 := by
  rw [trailerBlockOf, firstBlockOf_small h, trailerOfSectorFirst_small (by omega)]
  omega

theorem trailerBlockOf_big {b : Nat} (h : 128 ≤ b) : trailerBlockOf b = 16 * (b / 16) + 15 := by
  rw [trailerBlockOf, firstBlockOf_big h, trailerOfSectorFirst_big (by omega)]
  omega

theorem sectorSize_eq (b : Nat) : sectorSize b = 4 ∨ sectorSize b = 16 := ite_eq_or_eq ..

/-- Law (e): a sector of n blocks has its trailer n - 1 after its first block (R46). -/
theorem firstBlockOf_add_sectorSize (b : Nat) : firstBlockOf b + sectorSize b = trailerBlockOf b + 1 := by
  rcases Nat.lt_or_ge b 128 with h | h
  · rw [firstBlockOf_small h, sectorSize_small h, trailerBlockOf_small h]; omega
  · rw [firstBlockOf_big h, sectorSize_big h, trailerBlockOf_big h]; omega

theorem le_trailerBlockOf (b : Nat) : b ≤ trailerBlockOf b := by
  rcases Nat.lt_or_ge b 128 with h | h
  · rw [trailerBlockOf_small h]; omega
  · rw [trailerBlockOf_big h]; omega

theorem trailerBlockOf_le {b : Nat} (hb : b < 256) : trailerBlockOf b ≤ 255 := by
  rcases Nat.lt_or_ge b 128 with h | h
  · rw [trailerBlockOf_small h]; omega
  · rw [trailerBlockOf_big h]; omega

/-- The blocks from b to its trailer lie in one sector, and share the trailer. -/
theorem trailerBlockOf_of_between {b u : Nat} (hle : b ≤ u) (hu : u ≤ trailerBlockOf b) :
    trailerBlockOf u = trailerBlockOf b := by
  rcases Nat.lt_or_ge b 128 with h | h
  · rw [trailerBlockOf_small h] at hu ⊢
    rw [trailerBlockOf_small (by omega)]
    omega
  · rw [trailerBlockOf_big h] at hu ⊢
    rw [trailerBlockOf_big (by omega)]
    omega

/-- The first blocks are the blocks that are first in their sector (R81, R86). -/
theorem isFirstBlock_iff_firstBlockOf (b : Nat) : isFirstBlock b = true ↔ firstBlockOf b = b := by
  rw [isFirstBlock_iff]
  rcases Nat.lt_or_ge b 128 with h | h
  · rw [firstBlockOf_small h]; omega
  · rw [firstBlockOf_big h]; omega

/-- The trailer blocks are the blocks that are last in their sector (R82). -/
theorem isTrailerBlock_iff_trailerBlockOf (b : Nat) : isTrailerBlock b = true ↔ trailerBlockOf b = b := by
  rw [isTrailerBlock_iff]
  rcases Nat.lt_or_ge b 128 with h | h
  · rw [trailerBlockOf_small h]; omega
  · rw [trailerBlockOf_big h]; omega

theorem isFirstBlock_firstBlockOf (b : Nat) : isFirstBlock (firstBlockOf b) = true := by
  rw [isFirstBlock_iff]
  rcases Nat.lt_or_ge b 128 with h | h
  · rw [firstBlockOf_small h]; omega
  · rw [firstBlockOf_big h]; omega

/-- Law (a): a sector has at least 4 blocks, so none is its first and its last. -/
theorem not_isFirstBlock_and_isTrailerBlock (b : Nat) : ¬(isFirstBlock b = true ∧ isTrailerBlock b = true) := by
  rw [isFirstBlock_iff_firstBlockOf, isTrailerBlock_iff_trailerBlockOf]
  have hspan := firstBlockOf_add_sectorSize b
  have hsize := sectorSize_eq b
  omega

/-- Law (b), first half: the trailer of b's sector is a trailer block. -/
theorem isTrailerBlock_trailerBlockOf (b : Nat) : isTrailerBlock (trailerBlockOf b) = true :=
  (isTrailerBlock_iff_trailerBlockOf _).mpr (trailerBlockOf_of_between (le_trailerBlockOf b) le_rfl)

/-- Law (b), second half: no block from b to before that trailer is one. -/
theorem isTrailerBlock_of_between {b u : Nat} (hle : b ≤ u) (hu : u < trailerBlockOf b) :
    isTrailerBlock u = false := by
  rw [Bool.eq_false_iff, ne_eq, isTrailerBlock_iff_trailerBlockOf, trailerBlockOf_of_between hle hu.le]
  exact hu.ne'

/-- Law (c): the trailer by b's sector number is the trailer by b's first block (R84, R85). -/
theorem trailerOfSectorIndex_sectorOfBlock {k : CardKind} {b : Nat} (h : sectorOfBlock b < Config.sectors k) :
    trailerOfSectorIndex k (sectorOfBlock b) = trailerBlockOf b := by
  rcases Nat.lt_or_ge b 128 with hb | hb
  · rw [sectorOfBlock_small hb, trailerBlockOf_small hb]
    cases k with
    | classic1K => exact trailerOfSectorIndex_1K _
    | classic4K => exact trailerOfSectorIndex_small (by omega)
  · rw [sectorOfBlock_big hb] at h ⊢
    cases k with
    | classic1K => exact absurd h (by simp only [Config.sectors]; omega)
    | classic4K => rw [trailerOfSectorIndex_big (by omega), trailerBlockOf_big hb]; omega

/-- Law (d): SECOF takes the trailer of a sector back to the sector. -/
theorem sectorOfBlock_trailerOfSectorIndex {k : CardKind} {sec : Nat} (h : sec < Config.sectors k) :
    sectorOfBlock (trailerOfSectorIndex k sec) = sec := by
  have hsmall (h32 : sec < 32) : sectorOfBlock (4 * sec + 3) = sec := by
    rw [sectorOfBlock_small (by omega)]; omega
  cases k with
  | classic1K => exact hsmall (h.trans (by decide))
  | classic4K =>
    rcases Nat.lt_or_ge sec 32 with h32 | h32
    · rw [trailerOfSectorIndex_small h32]; exact hsmall h32
    · rw [trailerOfSectorIndex_big h32, sectorOfBlock_big (by omega)]; omega

/-- The trailer of a sector of the card is the trailer of the sector it lies in. -/
theorem trailerBlockOf_trailerOfSectorIndex {k : CardKind} {sec : Nat} (h : sec < Config.sectors k) :
    trailerBlockOf (trailerOfSectorIndex k sec) = trailerOfSectorIndex k sec := by
  have hsec := sectorOfBlock_trailerOfSectorIndex h
  calc trailerBlockOf (trailerOfSectorIndex k sec)
    _ = trailerOfSectorIndex k (sectorOfBlock (trailerOfSectorIndex k sec)) :=
      (trailerOfSectorIndex_sectorOfBlock (by rwa [hsec])).symm
    _ = trailerOfSectorIndex k sec := by rw [hsec]

/-- A block number or sector number up to 255 is an operand (R61). -/
theorem exists_byte {n : Nat} (h : n ≤ 255) : ∃ b : Byte, b.toNat = n :=
  ⟨BitVec.ofNat 8 n, Nat.mod_eq_of_lt (Nat.lt_succ_of_le h)⟩

theorem exists_firstBlock (b : BlockIndex) : ∃ f : BlockIndex, f.toNat = firstBlockOf b.toNat :=
  exists_byte ((firstBlockOf_le b.toNat).trans (Nat.le_of_lt_succ b.isLt))

/-! ### The obligations of 41_geometry.md -/

/-- Settles O23: from 241 on the formula of R83 exceeds 255. -/
theorem trlfstAddsOrFailsRange : Obligations.TrlfstAddsOrFailsRange := by
  refine fun b s => ⟨word_toNat 0x30 b, fun h => ?_, fun h h240 => ?_, fun h => ?_⟩
  · have hn := trailerOfSectorFirst_small h
    exact (trlfst_gives s (by omega)).of_eq hn
  · have hn := trailerOfSectorFirst_big h
    exact (trlfst_gives s (by omega)).of_eq hn
  · have hn := trailerOfSectorFirst_big (h.trans' (by decide))
    exact exec_trlfst_range s (by omega)

/-- Settles O24, by the kind and then by the sector. -/
theorem trlsecByKindAndSector : Obligations.TrlsecByKindAndSector := by
  refine fun sec s => ⟨word_toNat 0x40 sec, exec_trlsec_unset sec, fun hk h => trlsec_gives hk h,
    fun hk h => exec_trlsec_range hk h, fun hk h => ?_, fun hk h h40 => ?_, fun hk h => exec_trlsec_range hk h⟩
  · exact (trlsec_gives hk (h.trans (by decide))).of_eq (trailerOfSectorIndex_small h)
  · exact (trlsec_gives hk h40).of_eq (trailerOfSectorIndex_big h)

/-- Settles O25: b lies between the bounds of its quotient by the sector size (R46). -/
theorem secofIsTheSectorHoldingTheBlock : Obligations.SecofIsTheSectorHoldingTheBlock := by
  intro b s
  have hb : b.toNat < 256 := b.isLt
  refine ⟨word_toNat 0x50 b, sectorOfBlock b.toNat, secof_gives b s, rfl, fun h => ?_, fun h => ?_⟩
  · rw [sectorOfBlock_small h]; omega
  · rw [sectorOfBlock_big h]; omega

/-- Settles O26: the first block of a sector is its own first block. -/
theorem fstofIsTheFirstBlockOfTheSector : Obligations.FstofIsTheFirstBlockOfTheSector := by
  intro b s
  obtain ⟨f, hf⟩ := exists_firstBlock b
  have hfirst : isFirstBlock f.toNat = true := hf ▸ isFirstBlock_firstBlockOf b.toNat
  exact ⟨word_toNat 0x60 b, f, (fstof_gives b s).of_eq hf.symm, hf, hf ▸ firstBlockOf_le b.toNat,
    (isfirst_gives f s).result_eq_one_iff.mpr hfirst⟩

/-- Settles O21: 4 or 16 divides b when the remainder is 0. -/
theorem isfirstTellsFirstBlocks : Obligations.IsfirstTellsFirstBlocks := fun b s =>
  ⟨word_toNat 0x10 b, (isfirst_gives b s).of_eq
    (boolNat_eq_ite (by simp only [isFirstBlock_iff, Nat.dvd_iff_mod_eq_zero]))⟩

/-- Settles O22: 4 or 16 divides b + 1 when the remainder is 0. -/
theorem istrlTellsTrailerBlocks : Obligations.IstrlTellsTrailerBlocks := fun b s =>
  ⟨word_toNat 0x20 b, (istrl_gives b s).of_eq
    (boolNat_eq_ite (by simp only [isTrailerBlock_iff, Nat.dvd_iff_mod_eq_zero]))⟩

/-- Settles O27: the size of a sector by the side of block 128 it lies on. -/
theorem secszIsFourOrSixteen : Obligations.SecszIsFourOrSixteen := fun b s =>
  ⟨word_toNat 0x70 b, fun h => (secsz_gives b s).of_eq (sectorSize_small h),
    fun h => (secsz_gives b s).of_eq (sectorSize_big h)⟩

/-- Settles O28: a 4K card holds every BlockIndex. -/
theorem chkblkTellsCapacity : Obligations.ChkblkTellsCapacity := by
  refine fun b s => ⟨word_toNat 0x80 b, exec_chkblk_unset b, fun hk h => ?_, fun hk h => ?_, fun hk => ?_⟩
  · exact (chkblk_gives b hk).of_eq (if_pos h)
  · exact (chkblk_gives b hk).of_eq (if_neg (Nat.not_lt.mpr h))
  · exact (chkblk_gives b hk).of_eq (if_pos b.isLt)

/-- Law (a) over the results of ISFIRST and ISTRL. -/
theorem isfirst_istrl_results (b : BlockIndex) (s : State) :
    (commandResult (.isfirst b) s = some 1 ∨ commandResult (.isfirst b) s = some 0)
      ∧ (commandResult (.istrl b) s = some 1 ∨ commandResult (.istrl b) s = some 0)
      ∧ ¬(commandResult (.isfirst b) s = some 1 ∧ commandResult (.istrl b) s = some 1) := by
  have hfirst := isfirst_gives b s
  have htrl := istrl_gives b s
  rw [hfirst.result_eq_one_iff, hfirst.result_eq_zero_iff, htrl.result_eq_one_iff, htrl.result_eq_zero_iff]
  exact ⟨Bool.eq_false_or_eq_true _, Bool.eq_false_or_eq_true _, not_isFirstBlock_and_isTrailerBlock b.toNat⟩

/-- Law (c) over the results of SECOF and TRLSEC. -/
theorem trlsec_of_secof_result (b : BlockIndex) (s : State) :
    ∃ sec : SectorIndex, commandResult (.secof b) s = some (BitVec.ofNat 16 sec.toNat)
      ∧ (∀ v, commandResult (.trlsec sec) s = some v → v = BitVec.ofNat 16 (trailerBlockOf b.toNat))
      ∧ (s.regs.kind = .set .classic4K → (commandResult (.trlsec sec) s).isSome = true)
      ∧ (s.regs.kind = .set .classic1K → b.toNat < 64 → (commandResult (.trlsec sec) s).isSome = true) := by
  have h40 := sectorOfBlock_lt b.isLt
  obtain ⟨sec, hsec⟩ := exists_byte (h40.le.trans (by decide))
  refine ⟨sec, hsec ▸ (secof_gives b s).result, fun v hv => ?_, fun hk => ?_, fun hk hb => ?_⟩
  · obtain ⟨k, -, hlt, rfl⟩ := trlsec_eq_some hv
    rw [hsec] at hlt ⊢
    rw [trailerOfSectorIndex_sectorOfBlock hlt]
  · rw [(trlsec_gives hk (hsec.trans_lt h40)).result, Option.isSome_some]
  · have h16 : sec.toNat < 16 := by rw [hsec, sectorOfBlock_small (by omega)]; omega
    rw [(trlsec_gives hk h16).result, Option.isSome_some]

/-- Law (d) over the results of TRLSEC, SECOF, ISTRL, SECSZ and FSTOF. -/
theorem secof_of_trlsec_result {s : State} {k : CardKind} {sec : SectorIndex} (hk : s.regs.kind = .set k)
    (h : sec.toNat < Config.sectors k) :
    ∃ (t f : BlockIndex) (n : Nat), commandResult (.trlsec sec) s = some (BitVec.ofNat 16 t.toNat)
      ∧ commandResult (.secof t) s = some (BitVec.ofNat 16 sec.toNat)
      ∧ commandResult (.istrl t) s = some 1
      ∧ commandResult (.secsz t) s = some (BitVec.ofNat 16 n) ∧ (n = 4 ∨ n = 16)
      ∧ commandResult (.fstof t) s = some (BitVec.ofNat 16 f.toNat) ∧ t.toNat + 1 = f.toNat + n := by
  obtain ⟨t, ht⟩ := exists_byte (trailerOfSectorIndex_le h)
  obtain ⟨f, hf⟩ := exists_firstBlock t
  have hsec : sectorOfBlock t.toNat = sec.toNat := ht ▸ sectorOfBlock_trailerOfSectorIndex h
  have htrailer : trailerBlockOf t.toNat = t.toNat := ht ▸ trailerBlockOf_trailerOfSectorIndex h
  have hspan := firstBlockOf_add_sectorSize t.toNat
  refine ⟨t, f, sectorSize t.toNat, ht ▸ (trlsec_gives hk h).result, hsec ▸ (secof_gives t s).result,
    (istrl_gives t s).result_eq_one_iff.mpr ((isTrailerBlock_iff_trailerBlockOf _).mpr htrailer),
    (secsz_gives t s).result, sectorSize_eq t.toNat, hf ▸ (fstof_gives t s).result, ?_⟩
  omega

/-- Settles O29: each law over the commands' results is the law over block and sector numbers. -/
theorem geometryCommandsAgree : Obligations.GeometryCommandsAgree := by
  intro b s
  obtain ⟨f, hf⟩ := exists_firstBlock b
  obtain ⟨t, ht⟩ := exists_byte (trailerBlockOf_le b.isLt)
  have htrl : trailerOfSectorFirst f.toNat = t.toNat := by rw [hf, ht, trailerBlockOf]
  have hspan := firstBlockOf_add_sectorSize b.toNat
  have hsize := sectorSize_eq b.toNat
  refine ⟨isfirst_istrl_results b s,
    ⟨f, t, ?fstof, ?trlfst, ht ▸ le_trailerBlockOf b.toNat, ?istrl, ?least, ?trlsec, ?secsz⟩,
    fun k sec hk h => secof_of_trlsec_result hk (by cases k <;> exact h)⟩
  case fstof => exact hf ▸ (fstof_gives b s).result
  case trlfst => exact htrl ▸ (trlfst_gives s (htrl ▸ Nat.le_of_lt_succ t.isLt)).result
  case istrl => exact (istrl_gives t s).result_eq_one_iff.mpr (ht ▸ isTrailerBlock_trailerBlockOf b.toNat)
  case least =>
    exact fun u hle hu => (istrl_gives u s).result_eq_zero_iff.mpr (isTrailerBlock_of_between hle (ht ▸ hu))
  case trlsec => exact ht ▸ trlsec_of_secof_result b s
  case secsz => exact ⟨sectorSize b.toNat, (secsz_gives b s).result, by omega, by omega⟩

end Sys2Proof.GeometryFamily

/-! ### The fields of TUP, PROF and the permission matrices -/

namespace Sys2Proof.DecoderFamily

open Sys2Proof Sys2Proof.Machine Sys2Proof.Claims Sys2Proof.StateFamily

/-- Passing the lowest of the fields of one width that are put side by side. -/
theorem field_append_succ {n w : Nat} (high : BitVec n) (low : BitVec w) (k : Nat) :
    (high ++ low).extractLsb' (w * (k + 1)) w = high.extractLsb' (w * k) w := by
  rw [BitVec.extractLsb'_append_eq_of_le (Nat.le_mul_of_pos_right w k.succ_pos), Nat.mul_succ, Nat.add_sub_cancel]

/-- Field i of four fields of one width. -/
theorem field_of_four {w : Nat} (f : Fin 4 → BitVec w) (i : Fin 4) :
    (f 3 ++ f 2 ++ f 1 ++ f 0).extractLsb' (w * i.val) w = f i := by
  fin_cases i <;>
    simp only [field_append_succ, BitVec.extractLsb'_append_eq_right, Nat.mul_zero, BitVec.extractLsb'_eq_self] <;> rfl

/-- TUP[3i+2:3i] is t(i) (R29). -/
theorem packTuples_field (ac : AcBytes) (i : Fin 4) : (packTuples ac).extractLsb' (3 * i.val) 3 = acValue ac i.val :=
  field_of_four (fun i => acValue ac i.val) i

/-- PROF[4i+3:4i] is the code of tuple i (R30). -/
theorem packProfiles_field (ac : AcBytes) (i : Fin 4) :
    (packProfiles ac).extractLsb' (4 * i.val) 4 = acCode ac i.val :=
  field_of_four (fun i => acCode ac i.val) i

/-- The rights on a data block, in the order of their grant fields (R108). -/
def dataGrant (r : DataRights) : Fin 4 → Grant
  | 0 => r.read
  | 1 => r.write
  | 2 => r.increment
  | 3 => r.decrement

/-- A data matrix shows each right's grant in its field (R108). -/
theorem dataMatrix_field (r : DataRights) (j : Fin 4) :
    (dataMatrix r).extractLsb' (2 * j.val) 2 = grantBits (dataGrant r j) := by
  -- the append lemmas apply once the width 12 reads as a sum of field widths
  change ((_ : BitVec _) ++ grantBits r.read).extractLsb' (2 * j.val) 2 = _
  fin_cases j <;> simp only [field_append_succ, BitVec.extractLsb'_append_eq_right, Nat.mul_zero, dataGrant]

/-- A data matrix leaves the bits above its four fields 0 (R108). -/
theorem dataMatrix_high (r : DataRights) : (dataMatrix r).extractLsb' 8 4 = 0 := by
  change ((_ : BitVec _) ++ grantBits r.read).extractLsb' 8 4 = 0
  simp only [BitVec.extractLsb'_append_eq_of_le, Nat.reduceLeDiff, Nat.reduceSub]
  rfl

/-- The lowest field of a trailer matrix is KEYA_READ (R108). -/
theorem trailerMatrix_keyARead (r : TrailerRights) : (trailerMatrix r).extractLsb' 0 2 = grantBits r.keyARead :=
  BitVec.extractLsb'_append_eq_right

/-! ### Roles, codes and matrices as the rules print them -/

theorem roleBase_eq (r : Role) : roleBase r = 8 * r.bit.toNat := by cases r <;> rfl

/-- t(i) as a number, from the bits of AC[1] and AC[2] (R100). -/
theorem acValue_toNat (ac : AcBytes) (i : Fin 4) : (acValue ac i.val).toNat = tupleNumber ac[1] ac[2] i :=
  tupleValue_toNat _

/-- The profile code as a number, in the spec's terms (R106). -/
theorem profileCode_toNat_eq (r : Role) (v : TupleValue) : (profileCode r v).toNat = roleBase r + v.toNat := by
  rw [profileCode_toNat, roleBase_eq]

/-- The rights of a profile's text, encoded by R108, are its row of the printed table: 16 rows (R109, R110). -/
theorem permMatrix_tupleOfValue (r : Role) : ∀ v : TupleValue, permMatrix r (tupleOfValue v) = printedMatrix r v.toNat := by
  cases r <;> decide

theorem permMatrix_eq (r : Role) (t : AccessTuple) : permMatrix r t = printedMatrix r (tupleValue t).toNat := by
  rw [← permMatrix_tupleOfValue, tupleOfValue_tupleValue]

/-! ### What the decoding commands leave -/

/-- The AC field that a decoding command takes from DIN: DIN[6..9] for TVIEW, else DIN[0..3] (R42). -/
def acOperand : Instr → Din → AcBytes
  | .tview, d => trailerAc d
  | _, d => dinAc d

/-- TUP, PROF and PERM0..3 show the decode of the AC field (R116). -/
structure ShowsDecode (ac : AcBytes) (r : Results) : Prop where
  tup : r.tup = packTuples ac
  prof : r.prof = packProfiles ac
  perm : ∀ i : Fin 4, r.perm i = acMatrix ac i.val

theorem showsDecode_decodeIntoResults (ac : AcBytes) (r : Results) : ShowsDecode ac (decodeIntoResults ac r) :=
  ⟨rfl, rfl, decodeIntoResults_perm ac r⟩

/-- INTV and INTOK are no part of the decode. -/
theorem ShowsDecode.with_integrity {ac : AcBytes} {r : Results} (h : ShowsDecode ac r) (v ok : Bool) :
    ShowsDecode ac { r with intv := v, intok := ok } :=
  ⟨h.tup, h.prof, h.perm⟩

/-- The model's decode is the decode in the spec's terms, field by field (R100 to R110). -/
theorem ShowsDecode.decodeOf {ac : AcBytes} {r : Results} (h : ShowsDecode ac r) : DecodeOf ac[1] ac[2] r := by
  intro i
  refine ⟨?tup, ?prof, ?perm⟩
  case tup => rw [h.tup, packTuples_field, acValue_toNat]
  case prof => rw [h.prof, packProfiles_field, acCode, profileCode_toNat_eq, acValue_toNat]; rfl
  case perm => rw [h.perm, acMatrix, permMatrix_eq, ← acValue_toNat]; rfl

theorem exec_acdec (s : State) : exec .acdec s = .next (complete (decodeIntoResults (dinAc s.pins.din) .zero) s) := rfl

theorem exec_acdecc (s : State) :
    exec .acdecc s = .next (complete
      { decodeIntoResults (dinAc s.pins.din) .zero with intv := true, intok := integrity (dinAc s.pins.din) } s) := rfl

/-- Each of the three decoding commands completes and shows the decode of its AC field. -/
theorem exec_showsDecode {i : Instr} (hi : i = .acdec ∨ i = .acdecc ∨ i = .tview) (s : State) :
    ∃ r, exec i s = .next (complete r s) ∧ ShowsDecode (acOperand i s.pins.din) r := by
  rcases hi with rfl | rfl | rfl
  · exact ⟨_, rfl, showsDecode_decodeIntoResults _ _⟩
  · exact ⟨_, rfl, (showsDecode_decodeIntoResults _ _).with_integrity _ _⟩
  · exact ⟨_, rfl, showsDecode_decodeIntoResults _ _⟩

/-- A completed command leaves KIND and the ports, and its code is OK. -/
theorem decodedFrame_complete (r : Results) (s : State) : DecodedFrame s (complete r s) :=
  ⟨finishStatus_ok s.regs.status, rfl, rfl, rfl⟩

theorem dinAc_getElem? (d : Din) {k : Nat} (hk : k < 4) : (dinAc d)[k]? = d[k]? := by
  interval_cases k <;> rfl

/-- Settles O31. -/
theorem acdecDecodesLeniently : Obligations.AcdecDecodesLeniently :=
  ⟨rfl, fun s => ⟨_, exec_acdec s, decodedFrame_complete _ s, (showsDecode_decodeIntoResults _ _).decodeOf,
    fun _ => dinAc_getElem? s.pins.din, rfl, rfl, rfl, rfl, rfl⟩⟩

/-- Settles O32: INTV and INTOK are all that ACDECC leaves otherwise than ACDEC. -/
theorem acdeccReportsIntegrity : Obligations.AcdeccReportsIntegrity :=
  ⟨rfl, fun s => ⟨_, _, exec_acdecc s, exec_acdec s, decodedFrame_complete _ s,
    ((showsDecode_decodeIntoResults _ _).with_integrity _ _).decodeOf, fun _ => dinAc_getElem? s.pins.din, rfl,
    EncodingFamily.integrity_iff (dinAc s.pins.din), rfl⟩⟩

/-! ### CLASS -/

/-- The word of CLASS: OP = 0xB, r in bit 8, t in bits 2..0 (R61, R62). -/
theorem encode_classify_toNat (r : Role) :
    ∀ t : TupleValue, (encode (.classify r t)).toNat = 0xB000 + 32 * roleBase r + t.toNat := by
  cases r <;> decide

/-- CLASS leaves the code in RES and PROF and the printed matrix in PERM0 (R114). -/
theorem exec_classify (r : Role) (t : TupleValue) (s : State) :
    exec (.classify r t) s = .next (succeeded s s.regs.kind
      { Results.zero with
        res := BitVec.ofNat 16 (roleBase r + t.toNat)
        prof := BitVec.ofNat 16 (roleBase r + t.toNat)
        perm0 := printedMatrix r t.toNat }) := by
  have hres : zext16 (profileCode r t).toNat = BitVec.ofNat 16 (roleBase r + t.toNat) := by
    rw [profileCode_toNat_eq, zext16]
  have hprof : 0#12 ++ profileCode r t = zext16 (profileCode r t).toNat :=
    BitVec.eq_of_toNat_eq ((zero_append_toNat _).trans (zext16_toNat _ (by omega)).symm)
  rw [exec, execClassify, complete_eq, hprof, hres, permMatrix_tupleOfValue]
  rfl

/-- Settles O33. -/
theorem classGivesCodeAndMatrix : Obligations.ClassGivesCodeAndMatrix := fun r t s =>
  ⟨encode_classify_toNat r t, exec_classify r t s⟩

theorem commandResult_classify (r : Role) (t : TupleValue) (s : State) :
    commandResult (.classify r t) s = some (BitVec.ofNat 16 (roleBase r + t.toNat)) := by
  rw [commandResult, exec_classify]
  rfl

theorem roleBase_injective : Function.Injective roleBase := by
  intro r r' h
  cases r <;> cases r' <;> simp [roleBase] at h ⊢

/-- A code is `8*role + t` with t below 8, so it determines role and tuple (R106). -/
theorem roleBase_add_inj {r r' : Role} {t t' : TupleValue} (h : roleBase r' + t'.toNat = roleBase r + t.toNat) :
    r' = r ∧ t' = t := by
  have ht : t'.toNat = t.toNat := by rw [roleBase_eq, roleBase_eq] at h; omega
  exact ⟨roleBase_injective (by omega), BitVec.eq_of_toNat_eq ht⟩

/-- Settles O38: the result is the code itself, which fits its word. -/
theorem profileCodeRecoversRoleAndTuple : Obligations.ProfileCodeRecoversRoleAndTuple := by
  intro r t s
  have code_toNat (r : Role) (t : TupleValue) : (BitVec.ofNat 16 (roleBase r + t.toNat)).toNat = roleBase r + t.toNat := by
    rw [BitVec.toNat_ofNat, roleBase_eq]; omega
  refine ⟨_, commandResult_classify r t s, ?mod, ?div, fun r' t' h => roleBase_add_inj ?inj⟩
  case mod => rw [code_toNat, roleBase_eq]; omega
  case div => rw [code_toNat, roleBase_eq]; omega
  case inj =>
    rw [commandResult_classify, Option.some.injEq] at h
    rw [← code_toNat, h, code_toNat]

/-! ### What the decode depends on -/

/-- Two AC fields with the same direct bits: AC[1][7:4] and AC[2] (R101). -/
structure SameDirectBits (ac ac' : AcBytes) : Prop where
  c1 : ac'[1].extractLsb' 4 4 = ac[1].extractLsb' 4 4
  c2c3 : ac'[2] = ac[2]

/-- The direct bits determine each tuple (R100). -/
theorem SameDirectBits.acTuple_eq {ac ac' : AcBytes} (h : SameDirectBits ac ac') {i : Nat} (hi : i < 4) :
    acTuple ac' i = acTuple ac i := by
  have hc1 : ac'[1].getLsbD (i + 4) = ac[1].getLsbD (i + 4) := by
    simpa [Nat.add_comm, hi] using congrArg (·.getLsbD i) h.c1
  simp only [acTuple, acC1, acC2, acC3, hc1, h.c2c3]

/-- The decode is a function of the four tuples. -/
theorem ShowsDecode.of_acTuple_eq {ac ac' : AcBytes} {r : Results} (hr : ShowsDecode ac' r)
    (h : ∀ i < 4, acTuple ac' i = acTuple ac i) : ShowsDecode ac r := by
  refine ⟨hr.tup.trans ?_, hr.prof.trans ?_, fun i => (hr.perm i).trans (congrArg (permMatrix _) (h i i.isLt))⟩
  · simp [packTuples, acValue, h]
  · simp [packProfiles, acCode, acValue, h]

/-- Settles O34: both runs show the decode of the same four tuples. -/
theorem decodeIgnoresInversesAndUserByte : Obligations.DecodeIgnoresInversesAndUserByte := by
  intro i s d h
  have hdecodes : (i = .acdec ∨ i = .acdecc ∨ i = .tview) ∧ SameDirectBits (acOperand i s.pins.din) (acOperand i d) := by
    rcases h with ⟨rfl | rfl, h1, h2⟩ | ⟨rfl, h1, h2⟩
    · exact ⟨.inl rfl, h1, h2⟩
    · exact ⟨.inr (.inl rfl), h1, h2⟩
    · exact ⟨.inr (.inr rfl), h1, h2⟩
  obtain ⟨hi, hbits⟩ := hdecodes
  obtain ⟨r, hexec, hr⟩ := exec_showsDecode hi s
  obtain ⟨r', hexec', hr'⟩ := exec_showsDecode hi (drivenWith s d)
  have hsame : ShowsDecode (acOperand i s.pins.din) r' := hr'.of_acTuple_eq fun _ => hbits.acTuple_eq
  exact ⟨_, _, hexec, hexec', hsame.tup.trans hr.tup.symm, hsame.prof.trans hr.prof.symm,
    fun j => (hsame.perm j).trans (hr.perm j).symm, rfl, rfl⟩

/-! ### INTOK in nibble form -/

/-- A word is two fields side by side when they are its upper and its lower bits. -/
theorem eq_append_iff {m n : Nat} {x : BitVec (m + n)} {high : BitVec m} {low : BitVec n} :
    x = high ++ low ↔ x.extractLsb' n m = high ∧ x.extractLsb' 0 n = low := by
  constructor
  · rintro rfl
    exact ⟨BitVec.extractLsb'_append_eq_left, BitVec.extractLsb'_append_eq_right⟩
  · rintro ⟨rfl, rfl⟩
    rw [BitVec.extractLsb'_append_extractLsb'_eq_extractLsb' (Nat.zero_add n).symm, BitVec.extractLsb'_eq_self]

/-- A nibble is the complement of another when each bit is. -/
theorem nibble_eq_not_iff {x y : BitVec 4} : x = ~~~y ↔ ∀ i : Fin 4, x.getLsbD i.val = !y.getLsbD i.val := by
  simp +contextual [BitVec.eq_of_getLsbD_eq_iff, Fin.forall_iff]

/-- The check of R111 on single bits is a check on nibbles (R115 (e)). -/
theorem integrityHolds_iff_nibbles (ac0 ac1 ac2 : Byte) :
    IntegrityHolds ac0 ac1 ac2 ↔
      ac0 = ~~~(ac2.extractLsb' 0 4 ++ ac1.extractLsb' 4 4) ∧ ac1.extractLsb' 0 4 = ~~~(ac2.extractLsb' 4 4) := by
  have hac0 : ac0 = ~~~(ac2.extractLsb' 0 4 ++ ac1.extractLsb' 4 4)
      ↔ ac0.extractLsb' 4 4 = ~~~(ac2.extractLsb' 0 4) ∧ ac0.extractLsb' 0 4 = ~~~(ac1.extractLsb' 4 4) := by
    rw [BitVec.not_append]
    exact eq_append_iff (m := 4) (n := 4)
  rw [hac0, nibble_eq_not_iff, nibble_eq_not_iff, nibble_eq_not_iff, ← forall_and, ← forall_and]
  refine forall_congr' fun i => ?_
  simp [Nat.add_comm 4, and_left_comm, and_assoc]

/-- Settles O35. -/
theorem integrityInNibbleForm : Obligations.IntegrityInNibbleForm := by
  intro s t h
  rw [exec_acdecc] at h
  cases h
  exact (EncodingFamily.integrity_iff (dinAc s.pins.din)).trans (integrityHolds_iff_nibbles _ _ _)

/-! ### Single direct bits -/

/-- AC[0] and AC[3] do not reach TUP, so it is that of the field with zeros there (R101). -/
theorem packTuples_eq_direct (ac : AcBytes) : packTuples ac = packTuples #v[0, ac[1], ac[2], 0] := rfl

/-- The three direct bits of each block, one at a time (R115 (a)). -/
theorem packTuples_single_bit : ∀ i : Fin 4,
    packTuples #v[0, 1#8 <<< (i.val + 4), 0, 0] = 1#12 <<< (3 * i.val + 2)
      ∧ packTuples #v[0, 0, 1#8 <<< i.val, 0] = 1#12 <<< (3 * i.val + 1)
      ∧ packTuples #v[0, 0, 1#8 <<< (i.val + 4), 0] = 1#12 <<< (3 * i.val) := by decide

/-- ACDEC shows in TUP what the direct bits of DIN[1] and DIN[2] decode to. -/
theorem exec_acdec_tup {s : State} {ac1 ac2 : Byte} (h1 : s.pins.din[1] = ac1) (h2 : s.pins.din[2] = ac2) :
    ∃ t, exec .acdec s = .next t ∧ t.regs.results.tup = packTuples #v[0, ac1, ac2, 0] := by
  subst h1 h2
  exact ⟨_, exec_acdec s, packTuples_eq_direct _⟩

/-- Settles O36. -/
theorem oneDirectBitSetsOneTupleBit : Obligations.OneDirectBitSetsOneTupleBit := by
  intro s i
  obtain ⟨hc1, hc2, hc3⟩ := packTuples_single_bit i
  exact ⟨fun h1 h2 => hc1 ▸ exec_acdec_tup h1 h2, fun h1 h2 => hc2 ▸ exec_acdec_tup h1 h2,
    fun h1 h2 => hc3 ▸ exec_acdec_tup h1 h2⟩

/-! ### What no profile grants -/

theorem trailerRights_keyARead (p : TrailerProfile) : (trailerRights p).keyARead = .never := by cases p <;> rfl

/-- No data profile's text gives a right to Key A alone (R104, R107). -/
theorem dataRights_grant_ne_keyA (p : DataProfile) : ∀ j : Fin 4, dataGrant (dataRights p) j ≠ .keyA := by
  cases p <;> decide

theorem grantBits_ne_keyA {g : Grant} (h : g ≠ .keyA) : grantBits g ≠ 0b01 := by
  cases g with
  | keyA => exact absurd rfl h
  | never | keyB | either => decide

/-- R115 (c), of the matrix of any tuple. -/
theorem permMatrix_trailer_keyARead (t : AccessTuple) : (permMatrix .trailer t).extractLsb' 0 2 = 0 :=
  (trailerMatrix_keyARead _).trans (congrArg grantBits (trailerRights_keyARead _))

/-- R115 (d), of the matrix of any tuple. -/
theorem permMatrix_data_field_ne (t : AccessTuple) (j : Fin 4) : (permMatrix .data t).extractLsb' (2 * j.val) 2 ≠ 0b01 :=
  (dataMatrix_field _ j).trans_ne (grantBits_ne_keyA (dataRights_grant_ne_keyA _ j))

theorem tupleRole_of_ne_three {b : Fin 4} (hb : b ≠ 3) : tupleRole b.val = .data := if_neg (Fin.val_ne_of_ne hb)

/-- Settles O37. -/
theorem noProfileReadsKeyAOrGrantsDataToKeyAAlone : Obligations.NoProfileReadsKeyAOrGrantsDataToKeyAAlone := by
  refine ⟨fun t s u h => ?_, fun t s u j h => ?_, fun i s u hi h => ?_⟩
  · cases h
    exact permMatrix_trailer_keyARead (tupleOfValue t)
  · cases h
    exact permMatrix_data_field_ne (tupleOfValue t) j
  · obtain ⟨r, hexec, hr⟩ := exec_showsDecode hi s
    rw [hexec] at h
    cases h
    refine ⟨?_, fun b j hb => ?_⟩
    · exact (congrArg (·.extractLsb' 0 2) (hr.perm 3)).trans (permMatrix_trailer_keyARead _)
    · rw [complete_results, hr.perm b, acMatrix, tupleRole_of_ne_three hb]
      exact ⟨permMatrix_data_field_ne _ j, dataMatrix_high _⟩

end Sys2Proof.DecoderFamily

/-! ### The trailer view -/

namespace Sys2Proof.TrailerFamily

open Sys2Proof Sys2Proof.Machine Sys2Proof.Claims Sys2Proof.DecoderFamily

/-- Key A is the trailer's bytes 0..5 (R130). -/
theorem trailerKeyA_getElem? (d : Din) {k : Nat} (hk : k < 6) : (trailerKeyA d)[k]? = d[k]? := by
  interval_cases k <;> rfl

/-- The AC field is the trailer's bytes 6..9 (R130). -/
theorem trailerAc_getElem? (d : Din) {k : Nat} (hk : k < 4) : (trailerAc d)[k]? = d[6 + k]? := by
  interval_cases k <;> rfl

/-- Key B is the trailer's bytes 10..15 (R130). -/
theorem trailerKeyB_getElem? (d : Din) {k : Nat} (hk : k < 6) : (trailerKeyB d)[k]? = d[10 + k]? := by
  interval_cases k <;> rfl

theorem exec_tview (s : State) :
    exec .tview s = .next (complete
      (decodeIntoResults (trailerAc s.pins.din)
        { Results.zero with keyA := trailerKeyA s.pins.din, keyB := trailerKeyB s.pins.din }) s) := rfl

/-- Settles O39: the decode writes over the split keys and keeps them, and the other fields stay 0. -/
theorem tviewSplitsAndDecodesTheTrailer : Obligations.TviewSplitsAndDecodesTheTrailer := by
  refine ⟨rfl, fun s => ⟨_, exec_tview s, decodedFrame_complete _ s, ?keyA, ?acr, ?keyB, ?decode, rfl, rfl, rfl⟩⟩
  case keyA => exact fun _ => trailerKeyA_getElem? s.pins.din
  case acr => exact fun _ => trailerAc_getElem? s.pins.din
  case keyB => exact fun _ => trailerKeyB_getElem? s.pins.din
  case decode => exact (showsDecode_decodeIntoResults (trailerAc s.pins.din) _).decodeOf

/-- The AC operand of ACDEC is that of TVIEW when DIN[0..3] hold the bytes that the trailer has at DIN[6..9] (R42). -/
theorem dinAc_eq_trailerAc {d d' : Din} (h : ∀ k, k < 4 → d'[k]? = d[6 + k]?) : dinAc d' = trailerAc d := by
  refine Vector.ext fun k hk => ?_
  have hbyte : (dinAc d')[k]? = (trailerAc d)[k]? := by
    rw [dinAc_getElem? d' hk, h k hk, trailerAc_getElem? d hk]
  simpa [hk] using hbyte

/-- Settles O40: both commands write the decode of one AC field, whatever the other result fields are. -/
theorem tviewAgreesWithAcdec : Obligations.TviewAgreesWithAcdec := by
  intro s s' h
  have hac : dinAc s'.pins.din = trailerAc s.pins.din := dinAc_eq_trailerAc h
  refine ⟨_, _, exec_tview s, exec_acdec s', ?_⟩
  rw [hac]
  exact ⟨rfl, rfl, fun i => (decodeIntoResults_perm _ _ i).trans (decodeIntoResults_perm _ _ i).symm, rfl⟩

/-! ### The tuple that governs a block -/

/-- In a 4-block sector the governing tuple is the block's offset from the first block (R133). -/
theorem governingTuple_small {b : BlockIndex} (h : b.toNat < 128) : (governingTuple b).val = b.toNat % 4 := by
  rw [governingTuple, if_pos h, firstBlockOf_small h, Fin.val_ofNat]
  omega

theorem blockRole_eq_trailer_iff (b : BlockIndex) : blockRole b = .trailer ↔ isTrailerBlock b.toNat = true := by
  simp [blockRole]

/-- Settles O30: the index is b % 4, and the trailer is the block where it is 3. -/
theorem smallSectorTupleGovernsItsBlock : Obligations.SmallSectorTupleGovernsItsBlock := by
  intro b h
  rw [governingTuple_small h, blockRole_eq_trailer_iff, isTrailerBlock_iff, firstBlockOf_small h]
  omega

end Sys2Proof.TrailerFamily

/-! ### The control commands

KINDQ is SETKIND of the kind its byte selects (R145, R146), so what a kind write does is said once, of SETKIND. -/

namespace Sys2Proof.ControlFamily

open Sys2Proof Sys2Proof.Machine Sys2Proof.Claims Sys2Proof.StateFamily

/-! ### What the kind writers leave -/

theorem writeKind_of_unset (k : CardKind) {s : State} (hk : s.regs.kind = .unset) :
    writeKind k s = succeeded s (.set k) (resOnly k.bit.toNat) := by
  rw [writeKind, hk]
  exact completeKind_eq (.set k) (onlyRes k.bit.toNat) s

theorem writeKind_of_set {k : CardKind} (k' : CardKind) {s : State} (hk : s.regs.kind = .set k) :
    writeKind k' s = failed s .kindLocked := by
  rw [writeKind, hk]
  exact fail_eq .kindLocked s (by decide)

theorem writeKind_ok_iff (k : CardKind) (s : State) :
    (writeKind k s).regs.status.code = .ok ↔ s.regs.kind = .unset := by
  cases hk : s.regs.kind with
  | unset => simp [writeKind_of_unset k hk, succeeded]
  | set k0 => simp [writeKind_of_set k hk, failed]

theorem exec_setkind_unset (k : CardKind) {s : State} (hk : s.regs.kind = .unset) :
    exec (.setkind k) s = .next (succeeded s (.set k) (resOnly k.bit.toNat)) :=
  congrArg _ (writeKind_of_unset k hk)

theorem exec_setkind_set {k : CardKind} (k' : CardKind) {s : State} (hk : s.regs.kind = .set k) :
    exec (.setkind k') s = .next (failed s .kindLocked) :=
  congrArg _ (writeKind_of_set k' hk)

/-- R146 is R144 with the kind of R145. -/
theorem exec_kindq (a : Byte) (s : State) : exec (.kindq a) s = exec (.setkind (kindOfAtqa1 a)) s := rfl

theorem exec_kindq_set {k : CardKind} (a : Byte) {s : State} (hk : s.regs.kind = .set k) :
    exec (.kindq a) s = .next (failed s .kindLocked) :=
  exec_setkind_set (kindOfAtqa1 a) hk

theorem setkind_ok_iff {k : CardKind} {s t : State} (h : exec (.setkind k) s = .next t) :
    t.regs.status.code = .ok ↔ s.regs.kind = .unset := by
  cases h
  exact writeKind_ok_iff k s

/-! ### KIND is write-once -/

/-- A step whose command fails keeps KIND (R163). -/
theorem step_kind_of_failed {s t : State} {w : Word} {i : Instr} {c : Code} (hw : Issues s w) (hdec : decode w = .ok i)
    (hexec : exec i s = .next (failed s c)) (hstep : step s = .next t) : t.regs.kind = s.regs.kind := by
  rw [step_of_exec hw hdec hexec] at hstep
  cases hstep
  rfl

/-- A set kind is changed by RST or by the words of CLRKIND and SRST alone: of the four writers of KIND, the other two
fail when a kind is set (R143). -/
theorem set_kind_changed_by {s t : State} {k : CardKind} (hk : s.regs.kind = .set k) (hstep : step s = .next t)
    (hchange : t.regs.kind ≠ s.regs.kind) : s.pins.rst = true ∨ Issues s 0x0100 ∨ Issues s 0x0200 := by
  rcases onlyKindWritersChangeKind s t hstep hchange with hrst | ⟨w, i, hw, hdec, hi⟩
  · exact .inl hrst
  · obtain ⟨rfl, -⟩ := EncodingFamily.encodeOfDecodeIsTheWord w i hdec
    rcases hi with rfl | rfl | ⟨k', rfl⟩ | ⟨a, rfl⟩
    · exact .inr (.inl hw)
    · exact .inr (.inr hw)
    · exact absurd (step_kind_of_failed hw hdec (exec_setkind_set k' hk) hstep) hchange
    · exact absurd (step_kind_of_failed hw hdec (exec_kindq_set a hk) hstep) hchange

/-- Settles O15. -/
theorem cardKindIsWriteOnce : Obligations.CardKindIsWriteOnce := by
  refine ⟨fun s t k h => setkind_ok_iff h, fun s t a h => setkind_ok_iff ((exec_kindq a s).symm.trans h),
    fun s k k' hk => exec_setkind_set k' hk, fun s k a hk => exec_kindq_set a hk, fun s t k hk hstep hchange => ?_⟩
  exact set_kind_changed_by hk hstep (hk ▸ hchange)

/-! ### The obligations of 44_control.md -/

/-- RV alone is bit 7 of STATUS (R26). -/
theorem statusBits_responded : Status.toBits { rv := true, errs := false, code := .ok } = 0x80 := by decide

/-- Settles O43: the values SRST leaves are those of `exec_srst`, and ERRS is read off the command's effect. -/
theorem srstIsResetWithResponse : Obligations.SrstIsResetWithResponse := by
  refine ⟨rfl, fun s => ⟨_, exec_srst s, statusBits_responded, rfl, rfl, rfl, rfl⟩, fun i s t h hset hclear => ?_⟩
  obtain ⟨e, he, hexec⟩ := exec_effect i s.pins.din s.regs.kind
  rw [hexec s rfl rfl] at h
  cases h
  exact commandEffect_errs he hset hclear

/-- Settles O45, by the test of R145 on the whole byte. -/
theorem kindqSetsByWholeByteOrIsLocked : Obligations.KindqSetsByWholeByteOrIsLocked := by
  refine fun a s => ⟨word_toNat 0xE0 a, fun hk ha => ?_, fun hk ha => ?_, fun k hk => exec_kindq_set a hk⟩
  · rw [exec_kindq, kindOfAtqa1_eq, if_pos ha]
    exact exec_setkind_unset .classic4K hk
  · rw [exec_kindq, kindOfAtqa1_eq, if_neg ha]
    exact exec_setkind_unset .classic1K hk

/-- Settles O41: NOP completes with the zeroed result fields (R162). -/
theorem nopClearsResults : Obligations.NopClearsResults :=
  ⟨rfl, fun s => congrArg _ (complete_eq .zero s)⟩

/-- Settles O42: KIND before the command does not enter what `completeKind` leaves. -/
theorem clrkindUnsetsKind : Obligations.ClrkindUnsetsKind :=
  ⟨rfl, fun s => congrArg _ (completeKind_eq .unset .zero s)⟩

/-- Settles O44. -/
theorem setkindSetsOrIsLocked : Obligations.SetkindSetsOrIsLocked :=
  ⟨by decide, by decide, fun _ =>
    ⟨fun hk => ⟨exec_setkind_unset .classic1K hk, exec_setkind_unset .classic4K hk⟩,
      fun _ k' hk => exec_setkind_set k' hk⟩⟩

end Sys2Proof.ControlFamily

/-! ### Completion codes and failures -/

namespace Sys2Proof.ExceptionFamily

open Sys2Proof Sys2Proof.Machine Sys2Proof.Claims Sys2Proof.StateFamily Sys2Proof.MemoryFamily
open Sys2Proof.GeometryFamily Sys2Proof.ControlFamily

/-! ### Completion -/

/-- Settles O9: a command answers next with its effect, and a step with the response of the registers to the pins. -/
theorem everyCommandAndStepCompletes : Obligations.EveryCommandAndStepCompletes := by
  constructor
  · intro i s
    obtain ⟨e, -, hexec⟩ := exec_effect i s.pins.din s.regs.kind
    exact ⟨_, hexec s rfl rfl⟩
  · exact fun s => ⟨_, step_eq_respond s⟩

/-! ### What a failed command leaves -/

/-- Of the effects of a presented command, only a failure leaves a code other than OK. -/
theorem eq_fail_of_code_ne_ok {e : Effect} (he : e ≠ .idle) {r : Registers} (hc : (e.apply r).status.code ≠ .ok) :
    e = .fail (e.apply r).status.code := by
  cases e with
  | idle => exact absurd rfl he
  | fail code => rfl
  | _ => exact absurd rfl hc

/-- The registers after the effect of a failure are those of R163. -/
theorem apply_fail_eq_failed {c : Code} (hc : c ≠ .ok) (s : State) :
    (Effect.fail c).apply s.regs = (failed s c).regs :=
  congrArg State.regs (fail_eq_failed hc s)

/-- Settles O19: the effect of the step is a failure with the code that it leaves. -/
theorem failedCommandLeavesOnlyItsCode : Obligations.FailedCommandLeavesOnlyItsCode := by
  rintro s t w ⟨-, hcmd⟩ hstep hc
  obtain ⟨e, he, rfl⟩ := effect_of_step hstep
  have hfail := eq_fail_of_code_ne_ok (pinsEffect_ne_idle he hcmd) hc
  exact (congrArg (Effect.apply s.regs) hfail).trans (apply_fail_eq_failed hc s)

/-! ### Which command gives which code -/

/-- The table of R160: why a decoded command in `s` completes with a code. -/
inductive CodeCause (s : State) : Instr → Code → Prop
  | ok {i : Instr} : CodeCause s i .ok
  /-- The trailer is no BlockIndex (R83). -/
  | trlfst_range {b : BlockIndex} (hb : 255 < trailerOfSectorFirst b.toNat) : CodeCause s (.trlfst b) .range
  /-- The card has no such sector (R84). -/
  | trlsec_range {sec : SectorIndex} {k : CardKind} (hk : s.regs.kind = .set k) (hsec : Config.sectors k ≤ sec.toNat) :
      CodeCause s (.trlsec sec) .range
  | trlsec_unset {sec : SectorIndex} (hk : s.regs.kind = .unset) : CodeCause s (.trlsec sec) .kindUnset
  | chkblk_unset {b : BlockIndex} (hk : s.regs.kind = .unset) : CodeCause s (.chkblk b) .kindUnset
  | setkind_locked {k' k : CardKind} (hk : s.regs.kind = .set k) : CodeCause s (.setkind k') .kindLocked
  | kindq_locked {a : Byte} {k : CardKind} (hk : s.regs.kind = .set k) : CodeCause s (.kindq a) .kindLocked

/-- Every command completes with a code that the table gives it a cause for. -/
theorem exec_codeCause (i : Instr) (s : State) : ∃ t, exec i s = .next t ∧ CodeCause s i t.regs.status.code := by
  cases i with
  | trlfst b =>
    by_cases hb : 255 < trailerOfSectorFirst b.toNat
    · exact ⟨_, exec_trlfst_range s hb, .trlfst_range hb⟩
    · exact ⟨_, trlfst_gives s (Nat.not_lt.mp hb), .ok⟩
  | trlsec sec =>
    cases hk : s.regs.kind with
    | unset => exact ⟨_, exec_trlsec_unset sec hk, .trlsec_unset hk⟩
    | set k =>
      by_cases hsec : sec.toNat < Config.sectors k
      · exact ⟨_, trlsec_gives hk hsec, .ok⟩
      · exact ⟨_, exec_trlsec_range hk (Nat.not_lt.mp hsec), .trlsec_range hk (Nat.not_lt.mp hsec)⟩
  | chkblk b =>
    cases hk : s.regs.kind with
    | unset => exact ⟨_, exec_chkblk_unset b hk, .chkblk_unset hk⟩
    | set k => exact ⟨_, chkblk_gives b hk, .ok⟩
  | setkind k' =>
    cases hk : s.regs.kind with
    | unset => exact ⟨_, exec_setkind_unset k' hk, .ok⟩
    | set k => exact ⟨_, exec_setkind_set k' hk, .setkind_locked hk⟩
  | kindq a =>
    cases hk : s.regs.kind with
    | unset => exact ⟨_, exec_setkind_unset (kindOfAtqa1 a) hk, .ok⟩
    | set k => exact ⟨_, exec_kindq_set a hk, .kindq_locked hk⟩
  | _ => exact ⟨_, rfl, .ok⟩

theorem codeCause_of_exec {i : Instr} {s t : State} (h : exec i s = .next t) : CodeCause s i t.regs.status.code := by
  obtain ⟨u, hu, hcause⟩ := exec_codeCause i s
  cases hu.symm.trans h
  exact hcause

/-- The trailer of a sector is at most 15 blocks after its first one (R83). -/
theorem trailerOfSectorFirst_le (b : Nat) : trailerOfSectorFirst b ≤ b + 15 := by
  rcases Nat.lt_or_ge b 128 with hb | hb
  · have hn := trailerOfSectorFirst_small hb
    omega
  · exact (trailerOfSectorFirst_big hb).le

/-- The codes of R160 are 0 to 4. -/
theorem codeBits_le_four (c : Code) : c.toBits.toNat ≤ 4 := by cases c <;> decide

/-- Settles O20: each code's causes are read off the table, and STATUS[5:0] is the code as the host reads it. -/
theorem completionCodesByCommand : Obligations.CompletionCodesByCommand := by
  refine ⟨fun i s t h => ?codes, fun s => ?status⟩
  case codes =>
    have hcause := codeCause_of_exec h
    refine ⟨fun hc => ?_, fun hc => ?_, fun hc => ?_, fun hc => ?_⟩ <;> rw [hc] at hcause
    · cases hcause
    · cases hcause with
      | trlfst_range hb => exact .inl ⟨_, rfl, hb.trans_le (trailerOfSectorFirst_le _)⟩
      | trlsec_range hk hsec => exact .inr ⟨_, _, rfl, hk, hsec⟩
    · cases hcause with
      | trlsec_unset hk => exact ⟨hk, .inl ⟨_, rfl⟩⟩
      | chkblk_unset hk => exact ⟨hk, .inr ⟨_, rfl⟩⟩
    · cases hcause with
      | setkind_locked hk => exact ⟨by simp [hk], .inl ⟨_, rfl⟩⟩
      | kindq_locked hk => exact ⟨by simp [hk], .inr ⟨_, rfl⟩⟩
  case status =>
    obtain ⟨hread, -⟩ := readMapReturnsEveryRegister s
    have hcode := codeBits_le_four s.regs.status.code
    omega

/-! ### ERRS over a sequence -/

/-- `finish` leaves ERRS clear exactly when it was clear and the code is OK (R162). -/
theorem finishStatus_errs_eq_false_iff (c : Code) (st : Status) :
    (finishStatus c st).errs = false ↔ st.errs = false ∧ c = .ok := by
  by_cases hc : c = .ok
  · simp [hc]
  · simp [hc, finishStatus_error_errs]

/-- A command other than SRST leaves ERRS clear exactly when it was clear and the command did not fail. -/
theorem commandEffect_errs_iff {i : Instr} {e : Effect} (he : CommandEffect i e) (hi : i ≠ .srst) (r : Registers) :
    (e.apply r).status.errs = false ↔ r.status.errs = false ∧ (e.apply r).status.code = .ok := by
  cases he with
  | srst => exact absurd rfl hi
  | _ => exact finishStatus_errs_eq_false_iff _ r.status

/-- Only SRST's own word decodes to it (R62). -/
theorem ne_srst_of_decode {w : Word} {i : Instr} (hdec : decode w = .ok i) (hw : w ≠ 0x0200) : i ≠ .srst := by
  rintro rfl
  exact hw (word_eq_of_decode_srst hdec)

/-- The response to the pins is one of their effects. -/
theorem respond_effect (r : Registers) (p : Pins) : ∃ e, PinsEffect p e ∧ respond r p = e.apply r := by
  obtain ⟨e, he, hnext⟩ := effect_of_step (step_eq_respond { regs := r, pins := p, upcoming := [] })
  exact ⟨e, he, congrArg State.regs hnext⟩

/-- One step without RST and SRST: ERRS stays clear exactly when no command failed in it. -/
theorem respond_errs_iff {p : Pins} (hrst : p.rst = false) (hsrst : p.cmd ≠ some 0x0200) (r : Registers) :
    (respond r p).status.errs = false ↔
      r.status.errs = false ∧ (p.cmd.isSome = true → (respond r p).status.code = .ok) := by
  obtain ⟨e, he, hr⟩ := respond_effect r p
  rw [hr]
  cases he with
  | reset hrst' => simp [hrst] at hrst'
  | idle _ hcmd => simp [hcmd, Effect.apply]
  | command _ hcmd hdec he =>
    rw [imp_iff_right (by simp [hcmd])]
    exact commandEffect_errs_iff he (ne_srst_of_decode hdec fun hw => hsrst (hcmd.trans (congrArg some hw))) r
  | illegal _ hcmd =>
    rw [imp_iff_right (by simp [hcmd])]
    exact finishStatus_errs_eq_false_iff .illegal r.status

/-- Every command of the host's sequence `ps` completes with OK, from the registers `r`. -/
def CommandsOk (r : Registers) (ps : List Pins) : Prop :=
  ∀ (before after : List Pins) (p : Pins), ps = before ++ p :: after → p.cmd.isSome = true →
    ((before ++ [p]).foldl respond r).status.code = .ok

theorem commandsOk_nil (r : Registers) : CommandsOk r [] := fun _ _ _ hsplit => by simp at hsplit

/-- The first command completes with OK, and the others do from the registers it leaves. -/
theorem commandsOk_cons (r : Registers) (p : Pins) (ps : List Pins) :
    CommandsOk r (p :: ps) ↔
      (p.cmd.isSome = true → (respond r p).status.code = .ok) ∧ CommandsOk (respond r p) ps := by
  constructor
  · intro h
    exact ⟨h [] ps p rfl, fun before after q hsplit => h (p :: before) after q (congrArg (p :: ·) hsplit)⟩
  · rintro ⟨hhead, htail⟩ before after q hsplit
    cases before with
    | nil =>
      obtain ⟨rfl, -⟩ := List.cons.inj hsplit
      exact hhead
    | cons p' before =>
      obtain ⟨rfl, hps⟩ := List.cons.inj hsplit
      exact htail before after q hps

/-- Settles O52, by induction on the host's sequence. -/
theorem errsWitnessesEveryFailure : Obligations.ErrsWitnessesEveryFailure := by
  intro ps
  induction ps with
  | nil => exact fun r _ => ⟨fun h => ⟨h, commandsOk_nil r⟩, And.left⟩
  | cons p ps ih =>
    intro r hps
    obtain ⟨⟨hrst, hsrst⟩, hrest⟩ := List.forall_mem_cons.mp hps
    calc ((p :: ps).foldl respond r).status.errs = false
      _ ↔ (respond r p).status.errs = false ∧ CommandsOk (respond r p) ps := ih (respond r p) hrest
      _ ↔ r.status.errs = false ∧ (p.cmd.isSome = true → (respond r p).status.code = .ok)
            ∧ CommandsOk (respond r p) ps := by rw [respond_errs_iff hrst hsrst, and_assoc]
      _ ↔ r.status.errs = false ∧ CommandsOk r (p :: ps) := by rw [commandsOk_cons]

end Sys2Proof.ExceptionFamily

/-! ### Reset, waiting, and changing the card -/

namespace Sys2Proof.ResetFamily

open Sys2Proof Sys2Proof.Machine Sys2Proof.Claims Sys2Proof.StateFamily Sys2Proof.EncodingFamily Sys2Proof.ControlFamily

/-! ### Steps that run no command -/

/-- Settles O7: RST is looked at before the command port (R180). -/
theorem hardResetTakesPrecedence : Obligations.HardResetTakesPrecedence := fun _ hrst => step_of_rst hrst

/-- Settles O8: with neither RST nor a command only the pins move up (R181). -/
theorem idlePortKeepsRegisters : Obligations.IdlePortKeepsRegisters := fun _ hrst hcmd => step_of_idle hrst hcmd

/-! ### Changing the card -/

/-- A run whose host issues the command `i` first goes on, with the rest of the list, from the registers `i` leaves. -/
theorem runSteps_issue {i : Instr} {d : Din} {ps : List Pins} {s t : State}
    (h : exec i (withBeats s (issue i d :: ps)) = .next t) (n : Nat) :
    runSteps (n + 1) (withBeats s (issue i d :: ps)) = runSteps n (withBeats { s with regs := t.regs } ps) := by
  have hstep := step_of_exec ⟨rfl, rfl⟩ (decodeOfEncodeIsTheCommand i) h
  rw [runSteps_succ_of_step hstep, nextState_withBeats_cons]

/-- CLRKIND and SRST unset KIND in every state (R141, R142). -/
theorem exec_clear_kind {i : Instr} (hi : i = .clrkind ∨ i = .srst) (s : State) :
    ∃ t, exec i s = .next t ∧ t.regs.kind = .unset := by
  rcases hi with rfl | rfl
  · exact ⟨_, clrkindUnsetsKind.2 s, rfl⟩
  · exact ⟨_, exec_srst s, rfl⟩

/-- KINDQ's byte selects the kind that is 4K exactly for 0x02 (R145). -/
theorem kindOfAtqa1_eq_of_iff {a : Byte} {k : CardKind} (h : k = .classic4K ↔ a.toNat = 2) : kindOfAtqa1 a = k := by
  rw [kindOfAtqa1_eq]
  cases k with
  | classic1K => exact if_neg fun ha => nomatch h.mpr ha
  | classic4K => exact if_pos (h.mp rfl)

/-- SETKIND of a kind, and KINDQ with a byte that selects it, are one command (R146). -/
theorem exec_kindWrite {i : Instr} {k : CardKind}
    (hi : i = .setkind k ∨ ∃ a : Byte, i = .kindq a ∧ (k = .classic4K ↔ a.toNat = 2)) (s : State) :
    exec i s = exec (.setkind k) s := by
  rcases hi with rfl | ⟨a, rfl, ha⟩
  · rfl
  · rw [exec_kindq, kindOfAtqa1_eq_of_iff ha]

/-- Settles O46: the clear leaves KIND unset, so the kind write after it succeeds; alone, it finds the old kind. -/
theorem cardChangeNeedsClear : Obligations.CardChangeNeedsClear := by
  intro s old new clear write d d' hk hclear hwrite
  constructor
  · obtain ⟨t, ht, hunset⟩ := exec_clear_kind hclear (withBeats s [issue clear d, issue write d'])
    have hset := (exec_kindWrite hwrite _).trans
      (exec_setkind_unset new (s := withBeats { s with regs := t.regs } [issue write d']) hunset)
    exact ⟨_, (runSteps_issue ht 1).trans (runSteps_issue hset 0), rfl, rfl⟩
  · have hlocked := (exec_kindWrite hwrite _).trans (exec_setkind_set new (s := withBeats s [issue write d']) hk)
    exact ⟨_, runSteps_issue hlocked 0, hk, rfl⟩

end Sys2Proof.ResetFamily
